-- ==== Sys2Proof/Word.lean ====
section
/-! DEFINITION. The SX-408's plain words: bytes, line numbers, slot numbers. -/

namespace Sys2Proof

/-- A byte of the host bus, of a character or of the configuration image. -/
abbrev Byte := BitVec 8

/-- A line number, 0 to 7. -/
abbrev LineNo := Fin 8

/-- A slot of the Standing List, 0 to 3. -/
abbrev SlotNo := Fin 4

/-- The byte FFh, which event records and query reports hold where there is no line. -/
def noLine : Byte := 0xFF

end Sys2Proof
end

