-- ==== Sys2Proof/Syntax.lean ====
section
/-! DEFINITION. The commands the part takes: one constructor for each row of spec/opcode_table.json. -/

namespace Sys2Proof

/-- The commands that a code written to COMMAND names (R167). -/
inductive HostCommand where
  | openLine | closeLine | queryLine | setFormat | setTiming | setFlow | setQuota | sendBreak | flush
  | connect | release | setPart
  | standingPut | standingArm | standingDisarm | standingDrop | queryStanding
  | save | reload | resetPart
  deriving DecidableEq, Repr

/-- How the image read of a load ended (R149, R154). -/
inductive ReadEnd where
  /-- The memory did not acknowledge one of the three bytes the port sends: 0 the device select byte for a write,
  1 the address byte, 2 the device select byte for a read. -/
  | notAcknowledged (sent : Fin 3)
  /-- The whole read was made. These are the bytes in order from 000h, as the memory held them before the part first wrote it
  (log entry 14). -/
  | finished (image : List Byte)
  deriving DecidableEq, Repr

/-- The sample that ends START_BIT: how many SET_FORMATs of the line were taken between the start edge and it (log entry 6),
and RXDn at it, true for marking. -/
structure StartSample where
  changes : Nat
  level   : Bool
  deriving DecidableEq, Repr

/-- The commands of the table, in its order. The host's commands read their parameters from P0 to P7 (R166). -/
inductive Instr where
  /-- RESET# is released. -/
  | resetPin
  /-- The host writes 5Ah to COMMAND. -/
  | resetPart
  | openLine
  | closeLine
  | queryLine
  | setFormat
  | setTiming
  | setFlow
  | setQuota
  | sendBreak
  | flush
  | connect
  | release
  | setPart
  | standingPut
  | standingArm
  | standingDisarm
  | standingDrop
  | queryStanding
  | save
  | reload
  /-- The host writes an undefined code to COMMAND. -/
  | unknownCommand (code : Byte)
  /-- The host reads RX_CHAR. -/
  | rxChar
  /-- The host writes a value to TX_CHAR. -/
  | txChar (value : Byte)
  /-- The host reads PART_STATUS. -/
  | partStatus
  /-- The host writes any value to EVT_POP. -/
  | evtPop (value : Byte)
  /-- The host writes a value to the register at an offset. -/
  | registerWrite (offset : BitVec 5) (value : Byte)
  /-- The first stop bit of a frame is sampled: the data bits as sampled (bit 0 first on the line), the parity bit and
  the stop bit, true for marking. -/
  | frameComplete (line : LineNo) (data : Byte) (parity : Bool) (stop : Bool)
  | markWaitDone (line : LineNo)
  | breakEnd (line : LineNo)
  /-- HLDIn changes to a level, true for asserted. -/
  | hldiChange (line : LineNo) (level : Bool)
  | readyRecognition (line : LineNo)
  | itemFinished (line : LineNo)
  | breakTimerExpiry (line : LineNo)
  /-- The answer timer in this caller's record expires. -/
  | answerTimerExpiry (line : LineNo)
  /-- The idle timer in this line's record (the caller's, or line a's) expires. -/
  | idleTimerExpiry (line : LineNo)
  | drainTimerExpiry (line : LineNo)
  | silenceTimerExpiry (line : LineNo)
  | imageReadDone (how : ReadEnd)
  | pollAcknowledged
  /-- A byte of the save write in progress is not acknowledged: 0 is its device select byte, 1 its address byte, and the
  data bytes follow. -/
  | saveByteNotAcknowledged (byte : Nat)
  | writePollExpiry
  /-- A tick: RDY0 to RDY7 as sampled, bit n for line n. -/
  | readySample (levels : Byte)
  /-- The eighth sample after a start edge. -/
  | startBit (line : LineNo) (sample : StartSample)
  /-- RESET# goes low. -/
  | resetPinAsserted
  | saveWriteComplete
  deriving DecidableEq, Repr

end Sys2Proof
end

