-- ==== Sys2Proof/Decode.lean ====
section
/-! DEFINITION. The command codes of R167, and the reading of table words (the table gives no row any bits). -/

namespace Sys2Proof

/-- The command that a code written to COMMAND names, none for an undefined code (R167). -/
def commandOfCode (code : Byte) : Option HostCommand :=
  match code.toNat with
  | 0x01 => some .openLine
  | 0x02 => some .closeLine
  | 0x03 => some .queryLine
  | 0x04 => some .setFormat
  | 0x05 => some .setTiming
  | 0x06 => some .setFlow
  | 0x07 => some .setQuota
  | 0x08 => some .sendBreak
  | 0x09 => some .flush
  | 0x10 => some .connect
  | 0x11 => some .release
  | 0x12 => some .setPart
  | 0x20 => some .standingPut
  | 0x21 => some .standingArm
  | 0x22 => some .standingDisarm
  | 0x23 => some .standingDrop
  | 0x24 => some .queryStanding
  | 0x30 => some .save
  | 0x31 => some .reload
  | 0x5A => some .resetPart
  | _ => none

/-- The command of the table that a host command is. -/
def instrOfCommand : HostCommand → Instr
  | .openLine => .openLine
  | .closeLine => .closeLine
  | .queryLine => .queryLine
  | .setFormat => .setFormat
  | .setTiming => .setTiming
  | .setFlow => .setFlow
  | .setQuota => .setQuota
  | .sendBreak => .sendBreak
  | .flush => .flush
  | .connect => .connect
  | .release => .release
  | .setPart => .setPart
  | .standingPut => .standingPut
  | .standingArm => .standingArm
  | .standingDisarm => .standingDisarm
  | .standingDrop => .standingDrop
  | .queryStanding => .queryStanding
  | .save => .save
  | .reload => .reload
  | .resetPart => .resetPart

/-- The command of the table that a write access is (R164, R165): COMMAND, TX_CHAR and EVT_POP have rows of their own, and
every other offset is a REGISTER_WRITE. -/
def instrOfWrite (offset : BitVec 5) (value : Byte) : Instr :=
  match offset.toNat with
  | 0x04 => match commandOfCode value with
    | some c => instrOfCommand c
    | none => .unknownCommand value
  | 0x10 => .txChar value
  | 0x1C => .evtPop value
  | _ => .registerWrite offset value

/-- The command that a table word spells. spec/opcode_table.json gives no row a bit pattern, so no word spells a command
(log entry 20). -/
def decodeTableWord (_nbits _w : Nat) : Option Instr := none

end Sys2Proof
end

