-- ==== Sys2Proof/Config.lean ====
section
/-! DEFINITION. The part's fixed figures (00_scope.md, "Principal figures" and "Factory defaults") and the values the
spec leaves open. -/

namespace Sys2Proof.Config

/-- XCLK periods in one tick of the Timebase (R1). -/
def tickDivisor : Nat := 73728

/-- Divisor of XCLK to the bit rate for each rate index (R3). -/
def rateDivisor : Fin 12 → Nat
  | 0 => 66752 | 1 => 24576 | 2 => 12288 | 3 => 6144 | 4 => 3072 | 5 => 1536
  | 6 => 768 | 7 => 384 | 8 => 192 | 9 => 128 | 10 => 96 | 11 => 64

/-- XCLK periods in one receiver sample: one sixteenth of the bit-rate divisor (R3). -/
def sampleDivisor (rate : Fin 12) : Nat := rateDivisor rate / 16

/-- Ticks of one unit of the drain limit (R2). -/
def ticksPerDrainUnit : Nat := 10
/-- Ticks of one second of the answer time (R2). -/
def ticksPerSecond : Nat := 100
/-- Ticks of one minute of the idle limit (R2). -/
def ticksPerMinute : Nat := 6000
/-- Ticks of the memory write poll (R2, R149). -/
def writePollTicks : Nat := 2

/-- Cells of the Queue Store (R20). -/
def cellCount : Nat := 128
/-- Entry positions of a cell (R20). -/
def cellSize : Nat := 16

/-- Records at which the posting rule appends OVERFLOW in place of the event (R178). -/
def overflowAt : Nat := 31

/-- XCLK periods in one period of MSCL (R149). -/
def memoryClockDivisor : Nat := 72
/-- Bytes of the configuration image, 000h to 10Fh (R150). -/
def imageSize : Nat := 272
/-- Writes of a save (R160). -/
def saveWrites : Nat := 36

/-- Factory drain limit, 5 s (R117). -/
def factoryDrainLimit : Byte := 50

/-- What ID reads (R164). -/
def partId : Byte := 0x4C
/-- What REVISION reads (R164). -/
def partRevision : Byte := 0x01

/-- DESIGN CHOICE (log entry 12), a free value: R86 returns a caller and a called line to HOST in one step and does not
say which of the two the Standing List takes first; true means that the called line is taken first. -/
opaque calledEvaluatedFirst : LineNo → LineNo → Bool

end Sys2Proof.Config
end

