-- ==== Sys2Proof/Machine/State.lean ====
section
/-! DEFINITION. The state of the SX-408 as plain data, and its values after reset. -/

namespace Sys2Proof.Machine

/-! ### Settings -/

inductive DataBits where
  | seven | eight
  deriving DecidableEq, Repr

inductive Parity where
  | none | even | odd
  deriving DecidableEq, Repr

inductive StopBits where
  | one | two
  deriving DecidableEq, Repr

/-- Character format and rate of a line (R3, R4). -/
structure Format where
  dataBits : DataBits
  parity   : Parity
  stopBits : StopBits
  rate     : Fin 12
  deriving DecidableEq, Repr

/-- Line settings written by SET_FORMAT and SET_TIMING (R16, R17). -/
structure LineSettings where
  format      : Format
  openAtStart : Bool
  rxThreshold : Byte
  txThreshold : Byte
  breakLength : Byte
  readyGrace  : Byte
  deriving DecidableEq, Repr

inductive Method where
  | none | lines | inband
  deriving DecidableEq, Repr

/-- Hold settings written by SET_FLOW (R41, R53). -/
structure HoldSettings where
  method     : Method
  pauseCode  : Byte
  resumeCode : Byte
  highMark   : Byte
  lowMark    : Byte
  deriving DecidableEq, Repr

/-! ### Entries and queues -/

inductive EntryKind where
  | data | error | brk
  deriving DecidableEq, Repr

/-- One character position of a queue (R19). -/
structure Entry where
  kind  : EntryKind
  value : Byte
  deriving DecidableEq, Repr

/-- A queue of the Queue Store (R21): the cells it holds from head to tail, the head position, its entries oldest first,
and its quota. Held cells, tail fill, occupancy and exception count are computed (Machine/Store.lean). R21 has a head position
only while the chain is not empty: that a queue without a cell has head position 0 is the model's choice (log entry 30). -/
structure Queue where
  chain   : List Nat
  headPos : Nat
  entries : List Entry
  reserve : Byte
  limit   : Byte
  deriving DecidableEq, Repr

/-- The sixteen queues. -/
inductive QueueId where
  | rq (n : LineNo)
  | tq (n : LineNo)
  deriving DecidableEq, Repr

/-! ### Line ports -/

/-- A timer (R2): stopped, or running with the number of ticks still to come before it expires; at 0 its expiry is due. -/
abbrev Timer := Option Nat

/-- Receiver state (section 1.3). A wait and a frame keep the format, and so the bit time, they began with (R12). IDLE keeps
the formats that SET_FORMAT has replaced since the receiver last looked for a start edge, latest first, for a start edge that
came before them (R5, R12; log entry 6). -/
inductive RxState where
  | disabled
  | waitMark (fmt : Format)
  | idle (earlier : List Format)
  | frame (fmt : Format)
  | breakWait (fmt : Format)
  deriving DecidableEq, Repr

/-- Transmitter state (section 1.4): idle, or busy with one item in the format in force when the item began (R12). -/
inductive TxState where
  | idle
  | char (value : Byte) (fmt : Format)
  | flow (code : Byte) (fmt : Format)
  | breakSpacing (fmt : Format)
  | breakTail (fmt : Format)
  deriving DecidableEq, Repr

/-- What the last ready sample left to be recognised at its tick (R13, R18). -/
inductive ReadyDue where
  | none | first | counted
  deriving DecidableEq, Repr

inductive Announced where
  | running | paused
  deriving DecidableEq, Repr

inductive MatcherState where
  | off | settling | ready | counting | confirming
  deriving DecidableEq, Repr

/-- An escape monitor (R118). -/
structure Monitor where
  state   : MatcherState
  count   : Nat
  silence : Timer
  holding : List Entry
  deriving DecidableEq, Repr

/-! ### Line records -/

inductive LineState where
  | closed | host | calling | offered | bridged | draining
  deriving DecidableEq, Repr

inductive Role where
  | caller | called
  deriving DecidableEq, Repr

inductive Origin where
  | ordered
  | standing (slot : SlotNo)
  deriving DecidableEq, Repr

inductive BreakAction where
  | forward | release
  deriving DecidableEq, Repr

/-- The optional parts of a line record, present or absent together (R57, R58). -/
structure Connection where
  peer        : LineNo
  role        : Role
  origin      : Origin
  escChar     : Byte
  escCount    : Byte
  guardTime   : Byte
  monitorFlag : Bool
  breakAction : BreakAction
  idleLimit   : Byte
  deriving DecidableEq, Repr

/-- Everything the part keeps for one line: its record (R57), its queues (R21), its port (chapter 1), its Hold Logic
(R41) and its escape monitor (R118). -/
structure Line where
  state         : LineState
  conn          : Option Connection
  answerTimer   : Timer
  idleTimer     : Timer
  drainTimer    : Timer
  tally         : Nat
  overrun       : Bool
  settings      : LineSettings
  hold          : HoldSettings
  rq            : Queue
  tq            : Queue
  rx            : RxState
  tx            : TxState
  breakTimer    : Timer
  ready         : Bool
  graceCount    : Nat
  rdySample     : Bool
  readyDue      : ReadyDue
  hldi          : Bool
  inputHeld     : Bool
  announced     : Announced
  receivedPause : Bool
  monitor       : Monitor
  deriving DecidableEq, Repr

/-! ### Standing List -/

/-- Contents of a standing record (R134). -/
structure Contents where
  lineA       : LineNo
  lineB       : LineNo
  escChar     : Byte
  escCount    : Byte
  guardTime   : Byte
  monitorA    : Bool
  monitorB    : Bool
  breakAction : BreakAction
  idleLimit   : Byte
  armAtStart  : Bool
  deriving DecidableEq, Repr

/-- A standing record: contents in every state other than EMPTY (R134). -/
inductive StandingRecord where
  | empty
  | idle (c : Contents)
  | armed (c : Contents)
  | active (c : Contents)
  deriving DecidableEq, Repr

/-! ### Memory Port -/

inductive PortState where
  | idle | loading | saving
  deriving DecidableEq, Repr

/-- The transfer in progress on MSCL and MSDA (R149): none (MSCL high, MSDA released), the image read, the write of a save,
or acknowledge polling. -/
inductive BusActivity where
  | quiet | reading | writing | polling
  deriving DecidableEq, Repr

/-- The Memory Port (R148). The load buffer and the snapshot are empty lists when discarded, and the count of writes made is 0
outside SAVING (log entry 16). -/
structure MemoryPort where
  state      : PortState
  bus        : BusActivity
  loadBuffer : List Byte
  snapshot   : List Byte
  writesMade : Nat
  pollTimer  : Timer
  deriving DecidableEq, Repr

/-! ### Host Port -/

/-- Result codes (R166). -/
inductive Result where
  | none | done | started | badLine | badValue | wrongState | notOpen | notReady | reservedLine | noQuota
  | memoryBusy | loading | unknown
  deriving DecidableEq, Repr

/-- Kinds of an event record (R177). -/
inductive EventKind where
  | loadDone | saveDone | connected | callFailed | released | drained | overrun | readyChange | overflow
  deriving DecidableEq, Repr

/-- An event record (R177). -/
structure Event where
  kind : EventKind
  line : Byte
  peer : Byte
  info : Byte
  seq  : Byte
  deriving DecidableEq, Repr

/-- The Host Port (chapter 10). `readData` is what the last read access drove on D0 to D7, none while undriven (R165). -/
structure HostPort where
  params     : Vector Byte 8
  result     : Result
  lineSelect : LineNo
  irqEnable  : Byte
  rxMask     : Byte
  txMask     : Byte
  txRefused  : Bool
  rxEmpty    : Bool
  popEmpty   : Bool
  cmdRefused : Bool
  events     : List Event
  nextSeq    : Byte
  readData   : Option Byte
  deriving DecidableEq, Repr

/-! ### The part -/

/-- The state of the part. `memory` is what completed writes have put into the external serial memory (log entry 14), and
`pending` is the queue of commands that wait, oldest first (log entry 1). -/
structure State where
  lines      : Vector Line 8
  freeList   : List Nat
  drainLimit : Byte
  standing   : Vector StandingRecord 4
  port       : MemoryPort
  memory     : List Host.Cell
  host       : HostPort
  resetLow   : Bool
  firstTick  : Bool
  pending    : List Instr
  deriving DecidableEq, Repr

/-- The spec gives the part no fault: every bus cycle completes normally and a refused command leaves a result code
(chapter 10). No meaning raises one. -/
inductive Fault where
  deriving DecidableEq, Repr

/-- Reasons for which exec gives a command no meaning. -/
inductive Refusal where
  /-- Raised by exec's arm of a command that has no meaning yet; no arm is left. Safe: the model stops. -/
  | notModelled (mnemonic : String)
  deriving DecidableEq, Repr

/-! ### Values after reset -/

/-- Factory format, 9600 bit/s 8N1 (R18). -/
def factoryFormat : Format := { dataBits := .eight, parity := .none, stopBits := .one, rate := 6 }

/-- Factory line settings (R18). -/
def factorySettings : LineSettings :=
  { format := factoryFormat, openAtStart := false, rxThreshold := 1, txThreshold := 0, breakLength := 25, readyGrace := 10 }

/-- Factory hold settings (R56). -/
def factoryHold : HoldSettings :=
  { method := .none, pauseCode := 0x13, resumeCode := 0x11, highMark := 24, lowMark := 8 }

/-- A queue after reset: empty, reserve 2, limit 16 (R39); its head position is the model's (log entry 30). -/
def factoryQueue : Queue := { chain := [], headPos := 0, entries := [], reserve := 2, limit := 16 }

/-- A monitor after reset, and whenever it is OFF (R118, R133). -/
def Monitor.offValue : Monitor := { state := .off, count := 0, silence := none, holding := [] }

/-- A line after reset (R18, R39, R56, R76, R132), with the level that its HLDIn pin has (log entry 8). -/
def Line.resetValue (hldi : Bool) : Line :=
  { state := .closed, conn := none, answerTimer := none, idleTimer := none, drainTimer := none, tally := 0,
    overrun := false, settings := factorySettings, hold := factoryHold, rq := factoryQueue, tq := factoryQueue,
    rx := .disabled, tx := .idle, breakTimer := none, ready := false, graceCount := 0, rdySample := false,
    readyDue := .none, hldi := hldi, inputHeld := false, announced := .running, receivedPause := false,
    monitor := .offValue }

/-- The Host Port after RESET# (R181). -/
def HostPort.resetValue : HostPort :=
  { params := Vector.replicate 8 0, result := .none, lineSelect := 0, irqEnable := 0, rxMask := 0, txMask := 0,
    txRefused := false, rxEmpty := false, popEmpty := false, cmdRefused := false, events := [], nextSeq := 0,
    readData := none }

/-- The Memory Port after a reset: LOADING, with the image read begun (R148, R153). -/
def MemoryPort.resetValue : MemoryPort :=
  { state := .loading, bus := .reading, loadBuffer := [], snapshot := [], writesMade := 0, pollTimer := none }

/-- The part at the release of RESET# (R18, R39, R56, R76, R117, R132, R147, R148, R181), with HLDI0 to HLDI7 deasserted
(log entry 8), no byte of the external memory known (log entry 14) and no command waiting. -/
def State.reset : State :=
  { lines := Vector.replicate 8 (Line.resetValue false), freeList := List.range 128,
    drainLimit := Config.factoryDrainLimit, standing := Vector.replicate 4 .empty, port := .resetValue, memory := [],
    host := .resetValue, resetLow := false, firstTick := true, pending := [] }

end Sys2Proof.Machine
end

