-- ==== Sys2Proof/Machine/Ops.lean ====
section
/-! DEFINITION. Named operations over the state: lines, timers, the result of a command, and the posting rule. -/

namespace Sys2Proof.Machine

/-! ### Access to the parts of the state -/

/-- The line with a number. -/
def State.line (s : State) (n : LineNo) : Line := s.lines.get n

/-- The state with one line changed. -/
def State.modLine (s : State) (n : LineNo) (f : Line → Line) : State :=
  { s with lines := s.lines.set n (f (s.line n)) }

/-- The state with its Host Port changed. -/
def State.modHost (s : State) (f : HostPort → HostPort) : State := { s with host := f s.host }

/-- The state with its Memory Port changed. -/
def State.modPort (s : State) (f : MemoryPort → MemoryPort) : State := { s with port := f s.port }

/-- The state with another free list. -/
def State.withFree (s : State) (free : List Nat) : State := { s with freeList := free }

/-- The standing record in a slot. -/
def State.record (s : State) (i : SlotNo) : StandingRecord := s.standing.get i

/-- The state with one standing record replaced. -/
def State.setRecord (s : State) (i : SlotNo) (r : StandingRecord) : State :=
  { s with standing := s.standing.set i r }

/-- The queue with a name. -/
def State.queue (s : State) : QueueId → Queue
  | .rq n => (s.line n).rq
  | .tq n => (s.line n).tq

/-- The state with one queue replaced. -/
def State.setQueue (s : State) (q : QueueId) (v : Queue) : State :=
  match q with
  | .rq n => s.modLine n fun l => { l with rq := v }
  | .tq n => s.modLine n fun l => { l with tq := v }

/-- The parameter register Pi as it stands (R168). -/
def State.param (s : State) (i : Fin 8) : Byte := s.host.params.get i

/-- The Memory Port is LOADING (R148). -/
def State.isLoading (s : State) : Bool := s.port.state == .loading

/-- Lines 0 to 7 in ascending order. -/
def allLines : List LineNo := [0, 1, 2, 3, 4, 5, 6, 7]

/-- Slots 0 to 3 in ascending order. -/
def allSlots : List SlotNo := [0, 1, 2, 3]

/-- One change after another, for each line in ascending order. -/
def forLines (f : LineNo → State → State) (s : State) : State :=
  allLines.foldl (fun t n => f n t) s

/-- The line number as an event field or a report (R74, R177). -/
def lineByte (n : LineNo) : Byte := BitVec.ofNat 8 n.val

/-- The line that a byte names, none above 7. -/
def lineOfByte (b : Byte) : Option LineNo :=
  if h : b.toNat < 8 then some ⟨b.toNat, h⟩ else none

/-- The slot that a byte names, none above 3. -/
def slotOfByte (b : Byte) : Option SlotNo :=
  if h : b.toNat < 4 then some ⟨b.toNat, h⟩ else none

/-! ### Timers (R2) -/

/-- A timer set to k ticks expires at the (k+1)th tick that follows; a setting of 0 never reaches a timer (R2). -/
def startTimer (k : Nat) : Timer := if k = 0 then none else some (k + 1)

/-- A tick counted by a timer; a timer whose expiry is due counts no further (log entry 3). -/
def tickTimer : Timer → Timer
  | none => none
  | some r => some (r - 1)

/-- The timer has counted its ticks and its expiry is due. -/
def timerDue (t : Timer) : Bool := t == some 0

/-! ### Results of commands (R166) -/

/-- Result codes as RESULT reads them (R166). -/
def resultCode : Result → Byte
  | .none => 0x00 | .done => 0x01 | .started => 0x02
  | .badLine => 0x10 | .badValue => 0x11 | .wrongState => 0x12 | .notOpen => 0x13 | .notReady => 0x14
  | .reservedLine => 0x15 | .noQuota => 0x16 | .memoryBusy => 0x17 | .loading => 0x18 | .unknown => 0x19

/-- Every refusal code is 10h or more (R166). -/
def isRefusal (r : Result) : Bool := 0x10 ≤ (resultCode r).toNat

/-- A command leaves its result; a refusal code sets CMD_REFUSED (R166, R173). -/
def State.leave (s : State) (r : Result) : State :=
  s.modHost fun h => { h with result := r, cmdRefused := h.cmdRefused || isRefusal r }

/-! ### The posting rule (R177, R178) -/

/-- The newest record is OVERFLOW. -/
def newestIsOverflow (es : List Event) : Bool :=
  match es.getLast? with
  | some e => e.kind == .overflow
  | none => false

/-- The event's count increased by one, saturating at 255. -/
def countOne (e : Event) : Event := { e with info := if e.info = 0xFF then 0xFF else e.info + 1 }

/-- The newest record counts one more discarded event (R178, step 1). -/
def countNewest (es : List Event) : List Event :=
  match es.getLast? with
  | some e => es.dropLast ++ [countOne e]
  | none => []

/-- A record appended at the tail with the next sequence number (R178). -/
def pushRecord (kind : EventKind) (line peer info : Byte) (h : HostPort) : HostPort :=
  { h with events := h.events ++ [{ kind, line, peer, info, seq := h.nextSeq }], nextSeq := h.nextSeq + 1 }

/-- The posting rule on the event queue (R178). -/
def postRecord (kind : EventKind) (line peer info : Byte) (h : HostPort) : HostPort :=
  if newestIsOverflow h.events then { h with events := countNewest h.events }
  else if h.events.length = Config.overflowAt then pushRecord .overflow noLine noLine 1 h
  else pushRecord kind line peer info h

/-- An event is posted by the posting rule (R178). -/
def State.post (s : State) (kind : EventKind) (line peer info : Byte) : State :=
  s.modHost (postRecord kind line peer info)

/-! ### Codes of the info field (R177) -/

inductive FailReason where
  | noAnswer | callerLost | cancelled
  deriving DecidableEq, Repr

inductive ReleaseReason where
  | host | escape | brk | readyLost | idle
  deriving DecidableEq, Repr

inductive LoadOutcome where
  | ok | noMemory | blank | badChecksum | badRecord
  deriving DecidableEq, Repr

inductive SaveOutcome where
  | ok | noMemory | writeFailed
  deriving DecidableEq, Repr

/-- Which queue refused an entry that is an overrun (R67). -/
inductive OverrunPlace where
  | ownRq | peerTq
  deriving DecidableEq, Repr

def failInfo : FailReason → Byte
  | .noAnswer => 0x01 | .callerLost => 0x02 | .cancelled => 0x03

def releaseInfo : ReleaseReason → Byte
  | .host => 0x01 | .escape => 0x02 | .brk => 0x03 | .readyLost => 0x04 | .idle => 0x05

def loadInfo : LoadOutcome → Byte
  | .ok => 0x00 | .noMemory => 0x01 | .blank => 0x02 | .badChecksum => 0x03 | .badRecord => 0x04

def saveInfo : SaveOutcome → Byte
  | .ok => 0x00 | .noMemory => 0x01 | .writeFailed => 0x02

def overrunInfo : OverrunPlace → Byte
  | .ownRq => 0x00 | .peerTq => 0x01

/-- Origin and slot in CONNECTED's info field: bit 7 for STANDING, the slot in bits 1 and 0 (R177). -/
def originInfo : Origin → Byte
  | .ordered => 0x00
  | .standing slot => 0x80 ||| BitVec.ofNat 8 slot.val

/-- Codes of the event kinds as EVT_KIND reads them (R177). -/
def kindCode : EventKind → Byte
  | .loadDone => 0x01 | .saveDone => 0x02 | .connected => 0x03 | .callFailed => 0x04 | .released => 0x05
  | .drained => 0x06 | .overrun => 0x07 | .readyChange => 0x08 | .overflow => 0x09

end Sys2Proof.Machine
end

