-- ==== Sys2Proof/Machine/Store.lean ====
section
/-! DEFINITION. The Queue Store (chapter 2): the append rule, single removal, discard, quotas and append room. Nothing here
hands a change on; Machine/Hold.lean and Machine/Transmit.lean do. -/

namespace Sys2Proof.Machine

/-- Cells the queue holds (R21). -/
def Queue.held (q : Queue) : Nat := q.chain.length

/-- Entries the queue holds (R21). -/
def Queue.occupancy (q : Queue) : Nat := q.entries.length

/-- Unfilled positions of the tail cell, 0 when the queue holds no cell (R21, R31). -/
def Queue.tailRoom (q : Queue) : Nat := Config.cellSize * q.held - q.headPos - q.occupancy

/-- Positions filled so far in the tail cell (R21); 0 when the queue holds no cell, which is the model's (log entry 30). -/
def Queue.tailFill (q : Queue) : Nat := if q.held = 0 then 0 else Config.cellSize - q.tailRoom

/-- ERROR and BREAK entries the queue holds (R21). -/
def Queue.exceptions (q : Queue) : Nat := q.entries.countP fun e => e.kind != .data

/-- The unmet reserve of a queue (R22). -/
def Queue.unmet (q : Queue) : Nat := q.reserve.toNat - q.held

/-- All sixteen queues. -/
def allQueues : List QueueId :=
  [.rq 0, .rq 1, .rq 2, .rq 3, .rq 4, .rq 5, .rq 6, .rq 7, .tq 0, .tq 1, .tq 2, .tq 3, .tq 4, .tq 5, .tq 6, .tq 7]

/-- The free count (R20). -/
def State.freeCount (s : State) : Nat := s.freeList.length

/-- Cells held by all sixteen queues. -/
def State.heldTotal (s : State) : Nat := (allQueues.map fun q => (s.queue q).held).sum

/-- The unmet total (R22). -/
def State.unmetTotal (s : State) : Nat := (allQueues.map fun q => (s.queue q).unmet).sum

/-- The sum of the reserves of all sixteen queues (R22). -/
def State.reserveTotal (s : State) : Nat := (allQueues.map fun q => (s.queue q).reserve.toNat).sum

/-- The sum of the unmet reserves of the other fifteen queues (R23). -/
def State.unmetOthers (s : State) (q : QueueId) : Nat :=
  (allQueues.map fun p => if p = q then 0 else (s.queue p).unmet).sum

/-- A new cell may be granted to the queue (R23, step 2). -/
def State.grantable (s : State) (q : QueueId) : Bool :=
  decide ((s.queue q).held < (s.queue q).limit.toNat) && decide (1 ≤ s.freeCount)
    && (decide ((s.queue q).held < (s.queue q).reserve.toNat) || decide (s.unmetOthers q < s.freeCount))

/-- The append rule (R23): the state with the entry stored, or none when the append is refused. A grant takes the cell that
has been free longest (R20). -/
def State.append (s : State) (q : QueueId) (e : Entry) : Option State :=
  let v := s.queue q
  if 0 < v.tailRoom then some (s.setQueue q { v with entries := v.entries ++ [e] })
  else if s.grantable q then
    match s.freeList with
    | [] => none
    | cell :: rest =>
      some ((s.withFree rest).setQueue q
        { v with chain := v.chain ++ [cell], entries := v.entries ++ [e],
                 headPos := if v.held = 0 then 0 else v.headPos })
  else none

/-- A single removal (R26, R27): the oldest entry and the state without it, or none on an empty queue. A cell whose last
filled position is removed returns to the end of the free list. The head position of an emptied queue is the model's (log entry
30). -/
def State.removeOldest (s : State) (q : QueueId) : Option (Entry × State) :=
  let v := s.queue q
  match v.entries with
  | [] => none
  | e :: rest =>
    if rest = [] then
      some (e, (s.withFree (s.freeList ++ v.chain)).setQueue q { v with chain := [], headPos := 0, entries := [] })
    else if v.headPos + 1 = Config.cellSize then
      some (e, (s.withFree (s.freeList ++ v.chain.take 1)).setQueue q
        { v with chain := v.chain.drop 1, headPos := 0, entries := rest })
    else some (e, s.setQueue q { v with headPos := v.headPos + 1, entries := rest })

/-- A discard (R28): every entry is removed and every cell returns to the end of the free list in chain order. The head position
of an emptied queue is the model's (log entry 30). -/
def State.discard (s : State) (q : QueueId) : State :=
  let v := s.queue q
  (s.withFree (s.freeList ++ v.chain)).setQueue q { v with chain := [], headPos := 0, entries := [] }

/-- A peek (R29). -/
def State.peek (s : State) (q : QueueId) : Option Entry := (s.queue q).entries.head?

/-- Append room (R31): the tail cell's free positions, and 16 for each further cell that would be granted in succession. -/
def State.appendRoom (s : State) (q : QueueId) : Nat :=
  let v := s.queue q
  v.tailRoom + Config.cellSize * min (v.limit.toNat - v.held) (s.freeCount - s.unmetOthers q)

/-- The state with the quotas of one line's two queues set; no cell moves (R34, R36). -/
def State.setQuotas (s : State) (n : LineNo) (rqReserve rqLimit tqReserve tqLimit : Byte) : State :=
  s.modLine n fun l =>
    { l with rq := { l.rq with reserve := rqReserve, limit := rqLimit },
             tq := { l.tq with reserve := tqReserve, limit := tqLimit } }

end Sys2Proof.Machine
end

