-- ==== Sys2Proof/Machine/Flags.lean ====
section
/-! DEFINITION. What follows from the state by a law of the part: output-held, pending codes, HLDO, CALL, attention, IRQ#,
levels and status bytes. -/

namespace Sys2Proof.Machine

/-- Output-held of a line (R50). -/
def Line.outputHeld (l : Line) : Bool :=
  match l.hold.method with
  | .none => false
  | .lines => l.hldi
  | .inband => l.receivedPause

/-- What announced stands for as a value of input-held (R41). -/
def announcedHeld : Announced → Bool
  | .paused => true
  | .running => false

/-- The announced state that a code for a value of input-held leaves (R47). -/
def announceOf : Bool → Announced
  | true => .paused
  | false => .running

/-- The line has a pending flow code: INBAND, and input-held differs from announced (R41). -/
def Line.codePending (l : Line) : Bool :=
  l.hold.method == .inband && l.inputHeld != announcedHeld l.announced

/-- The value of the pending code: pause while input-held, resume otherwise (R41). -/
def Line.codeValue (l : Line) : Byte := if l.inputHeld then l.hold.pauseCode else l.hold.resumeCode

/-- The HLDO law: asserted exactly while the method is LINES and input-held is true (R46). While RESET# is low it is
deasserted (R18). -/
def State.hldo (s : State) (n : LineNo) : Bool :=
  !s.resetLow && (s.line n).hold.method == .lines && (s.line n).inputHeld

/-- The CALL law: asserted exactly while the line is OFFERED or BRIDGED (R61). While RESET# is low it is deasserted (R18). -/
def State.call (s : State) (n : LineNo) : Bool :=
  !s.resetLow && ((s.line n).state == .offered || (s.line n).state == .bridged)

/-- A bitmap of the eight lines, bit n for line n (R164). -/
def lineBits (f : LineNo → Bool) : Byte :=
  allLines.foldl (fun b n => if f n then b ||| (1#8 <<< n.val) else b) 0

/-- Bit x of ATTN_RX (R175). -/
def State.attnRxBit (s : State) (x : LineNo) : Bool :=
  decide ((s.line x).settings.rxThreshold.toNat ≤ (s.line x).rq.occupancy) || decide ((s.line x).rq.exceptions ≠ 0)

/-- Bit x of ATTN_TX (R175). -/
def State.attnTxBit (s : State) (x : LineNo) : Bool :=
  (s.line x).state == .host && decide ((s.line x).tq.occupancy ≤ (s.line x).settings.txThreshold.toNat)

def State.attnRx (s : State) : Byte := lineBits s.attnRxBit
def State.attnTx (s : State) : Byte := lineBits s.attnTxBit

/-- READY_LEVELS (R174). -/
def State.readyLevels (s : State) : Byte := lineBits fun n => (s.line n).ready

/-- CALL_LEVELS (R174). -/
def State.callLevels (s : State) : Byte := lineBits s.call

/-- IRQ# is driven low (R176). -/
def State.irqLow (s : State) : Bool :=
  (s.host.irqEnable.getLsbD 0 && !s.host.events.isEmpty)
    || (s.host.irqEnable.getLsbD 1 && s.attnRx &&& s.host.rxMask != 0)
    || (s.host.irqEnable.getLsbD 2 && s.attnTx &&& s.host.txMask != 0)

/-- TXDn is marking with no item being sent (R9, R18). -/
def State.txdIdle (s : State) (n : LineNo) : Bool := (s.line n).tx == .idle

/-- The bit b at position i of a byte. -/
def bitAt (i : Nat) (b : Bool) : Byte := if b then 1#8 <<< i else 0

/-- Port state in PART_STATUS: 00 READY, 01 LOADING, 10 SAVING (R164). -/
def portStateCode : PortState → Byte
  | .idle => 0
  | .loading => 1
  | .saving => 2

/-- PART_STATUS as a read returns it (R164, R173). -/
def State.partStatusByte (s : State) : Byte :=
  portStateCode s.port.state ||| bitAt 2 s.host.txRefused ||| bitAt 3 s.host.rxEmpty ||| bitAt 4 s.host.popEmpty
    ||| bitAt 5 s.host.cmdRefused

/-- State codes of QUERY_LINE (R74). -/
def lineStateCode : LineState → Byte
  | .closed => 0x00 | .host => 0x01 | .calling => 0x02 | .offered => 0x03 | .bridged => 0x04 | .draining => 0x05

/-- Matcher codes of QUERY_LINE (R74). -/
def matcherCode : MatcherState → Byte
  | .off => 0x00 | .settling => 0x01 | .ready => 0x02 | .counting => 0x03 | .confirming => 0x04

/-- The flags of QUERY_LINE in P6 (R74). -/
def State.lineFlags (s : State) (n : LineNo) : Byte :=
  bitAt 0 (s.line n).inputHeld ||| bitAt 1 (s.line n).outputHeld ||| bitAt 2 (s.line n).ready ||| bitAt 3 (s.call n)
    ||| bitAt 4 (s.hldo n) ||| bitAt 5 (s.line n).overrun

/-- RX_KIND of an entry, 00h when there is none (R169). -/
def rxKindCode : Option Entry → Byte
  | none => 0x00
  | some e => match e.kind with
    | .data => 0x01
    | .error => 0x02
    | .brk => 0x03

/-- A count as a byte, saturating at 255 (R170). -/
def saturated (k : Nat) : Byte := BitVec.ofNat 8 (min k 255)

end Sys2Proof.Machine
end

