-- ==== Sys2Proof/Machine/Hold.lean ====
section
/-! DEFINITION. The Hold Logic (chapter 3): receive destination, input-held, and the beginning of a flow code. -/

namespace Sys2Proof.Machine

/-- The receive destination of a line: the TQ of its peer while BRIDGED, its own RQ in every other state (R42). -/
def State.destination (s : State) (x : LineNo) : QueueId :=
  match (s.line x).state, (s.line x).conn with
  | .bridged, some c => .tq c.peer
  | _, _ => .rq x

/-- Input-held for an occupancy of the destination (R43): true from the high threshold, false up to the low threshold,
kept between them. -/
def marksVerdict (l : Line) (occupancy : Nat) : Bool :=
  if l.hold.highMark.toNat * 8 ≤ occupancy then true
  else if occupancy ≤ l.hold.lowMark.toNat * 8 then false
  else l.inputHeld

/-- Input-held of a line compared anew with the occupancy of its destination (R43, R44). -/
def State.compareMarks (s : State) (x : LineNo) : State :=
  s.modLine x fun l => { l with inputHeld := marksVerdict l (s.queue (s.destination x)).occupancy }

/-- An idle transmitter begins a pending flow code, in the format then in force, and announced takes the value the code
stands for (R9, R47, R48). -/
def State.beginCode (s : State) (x : LineNo) : State :=
  if (s.line x).tx == .idle && (s.line x).codePending then
    s.modLine x fun l =>
      { l with tx := .flow l.codeValue l.settings.format, announced := announceOf l.inputHeld }
  else s

/-- The Hold Logic of a line takes the occupancy of its destination, and a code that becomes pending is begun by an idle
transmitter (R43, R44, R47). -/
def State.holdEval (s : State) (x : LineNo) : State := (s.compareMarks x).beginCode x

/-- The line whose receive destination is the queue, one or none (R30, R42). -/
def State.holdNeighbour (s : State) (q : QueueId) : Option LineNo :=
  match q with
  | .rq n => if s.destination n = .rq n then some n else none
  | .tq n =>
    match (s.line n).conn with
    | some c => if s.destination c.peer = .tq n then some c.peer else none
    | none => none

/-- An occupancy change of a queue handed to its hold neighbour (R30). -/
def State.tellHold (s : State) (q : QueueId) : State :=
  match s.holdNeighbour q with
  | some x => s.holdEval x
  | none => s

end Sys2Proof.Machine
end

