-- ==== Sys2Proof/Machine/Connect.lean ====
section
/-! DEFINITION. Connections in the Connection Table and the Standing List: bridging, answers, failures, automatic
establishment, and the end of a drain (chapters 5, 6 and 8). -/

namespace Sys2Proof.Machine

/-! ### Bridging -/

/-- A monitor as it starts: SETTLING with its silence timer at G, or READY if G is 0 (R119). -/
def startedMonitor (c : Connection) : Monitor :=
  if c.guardTime = 0 then { state := .ready, count := 0, silence := none, holding := [] }
  else { state := .settling, count := 0, silence := startTimer c.guardTime.toNat, holding := [] }

/-- The escape monitor of a line that becomes BRIDGED starts if the connection has an escape profile and the line's monitor
flag is set, and is OFF otherwise (R119). -/
def State.startMonitor (s : State) (x : LineNo) : State :=
  s.modLine x fun l =>
    { l with monitor := match l.conn with
      | some c => if c.escCount ≠ 0 ∧ c.monitorFlag = true then startedMonitor c else .offValue
      | none => .offValue }

/-- The idle timer of a connection starts at the idle limit, and stays stopped for a limit of 0 (R99). -/
def idleStart (l : Line) : Timer :=
  match l.conn with
  | some c => startTimer (c.idleLimit.toNat * Config.ticksPerMinute)
  | none => none

/-- Both lines, whose optional parts are written, go to BRIDGED: the idle timer in the caller's (line a's) record starts,
each Hold Logic takes its new destination, and the monitors start (R82 steps 2 to 6, R141 steps 1 and 3 to 6). -/
def State.bridge (s : State) (caller called : LineNo) : State :=
  ((((((s.modLine caller fun l => { l with state := .bridged, idleTimer := idleStart l }).modLine called fun l =>
    { l with state := .bridged }).holdEval caller).holdEval called).startMonitor caller).startMonitor called)

/-! ### Standing List -/

/-- The lines of a record that reserves them: ARMED or ACTIVE (R139). -/
def reservedLines : StandingRecord → Option (LineNo × LineNo)
  | .empty => none
  | .idle _ => none
  | .armed c => some (c.lineA, c.lineB)
  | .active c => some (c.lineA, c.lineB)

/-- The record names the line and reserves it (R139). -/
def reserves (r : StandingRecord) (n : LineNo) : Bool :=
  match reservedLines r with
  | some (a, b) => a == n || b == n
  | none => false

/-- A line is named in a record that is ARMED or ACTIVE (R139). -/
def State.reserved (s : State) (n : LineNo) : Bool := allSlots.any fun i => reserves (s.record i) n

/-- A line is named in another record that is ARMED or ACTIVE (R136). -/
def State.reservedElsewhere (s : State) (i : SlotNo) (n : LineNo) : Bool :=
  allSlots.any fun j => j != i && reserves (s.record j) n

/-- Conditions 2 to 4 of establishment (R140): both lines HOST, both TQs empty, both recognised ready levels present. -/
def State.establishable (s : State) (c : Contents) : Bool :=
  (s.line c.lineA).state == .host && (s.line c.lineB).state == .host
    && (s.line c.lineA).tq.entries.isEmpty && (s.line c.lineB).tq.entries.isEmpty
    && (s.line c.lineA).ready && (s.line c.lineB).ready

/-- The optional parts that establishment writes into the record of one line (R58, R134). -/
def standingPart (c : Contents) (slot : SlotNo) (role : Role) : Connection :=
  { peer := match role with | .caller => c.lineB | .called => c.lineA
    role := role, origin := .standing slot, escChar := c.escChar, escCount := c.escCount, guardTime := c.guardTime
    monitorFlag := match role with | .caller => c.monitorA | .called => c.monitorB
    breakAction := c.breakAction, idleLimit := c.idleLimit }

/-- Automatic establishment of a record's connection (R141). -/
def State.establish (s : State) (slot : SlotNo) (c : Contents) : State :=
  (((((s.modLine c.lineA fun l => { l with conn := some (standingPart c slot .caller) }).modLine c.lineB fun l =>
    { l with conn := some (standingPart c slot .called) }).bridge c.lineA c.lineB).setRecord slot (.active c)).post
      .connected (lineByte c.lineA) (lineByte c.lineB) (originInfo (.standing slot)))

/-- One record is evaluated: an ARMED record whose conditions hold is established (R140). -/
def State.evaluateSlot (s : State) (slot : SlotNo) : State :=
  match s.record slot with
  | .armed c => if s.establishable c then s.establish slot c else s
  | .empty => s
  | .idle _ => s
  | .active _ => s

/-- Every ARMED record that names a line is evaluated (R140); by the law of R136 there is at most one. -/
def State.evaluateLine (s : State) (n : LineNo) : State :=
  allSlots.foldl (fun t i => if reserves (t.record i) n then t.evaluateSlot i else t) s

/-- A CLOSED line is attached to the host: its receiver goes to WAIT_MARK and the Standing List is told (R5, R70). -/
def State.openLine (s : State) (n : LineNo) : State :=
  (s.modLine n fun l => { l with state := .host, rx := .waitMark l.settings.format }).evaluateLine n

/-! ### End of a drain -/

/-- The drain of a line is complete: TQ empty and transmitter idle (R110). -/
def Line.drained (l : Line) : Bool := l.tq.entries.isEmpty && l.tx == .idle

/-- A DRAINING line returns to HOST, DRAINED is posted with its tally, and the Standing List is told (R113). -/
def State.returnToHost (s : State) (n : LineNo) : State :=
  (((s.modLine n fun l => { l with drainTimer := none, state := .host }).post .drained (lineByte n) noLine
    (saturated (s.line n).tally)).modLine n fun l => { l with tally := 0 }).evaluateLine n

/-- The drain check: a DRAINING line whose drain is complete returns to HOST (R110). -/
def State.drainCheck (s : State) (n : LineNo) : State :=
  if (s.line n).state = .draining ∧ (s.line n).drained = true then s.returnToHost n else s

/-- A line's TQ has become empty: the Connection Table checks a drain, and the Standing List evaluates (R30, R110, R140). -/
def State.tqEmptied (s : State) (n : LineNo) : State := (s.drainCheck n).evaluateLine n

/-! ### Ordered calls -/

/-- An offered call is answered: the caller's answer timer stops, both lines are bridged, and CONNECTED is posted (R82). -/
def State.answer (s : State) (caller called : LineNo) : State :=
  ((s.modLine caller fun l => { l with answerTimer := none }).bridge caller called).post .connected (lineByte caller)
    (lineByte called) (originInfo .ordered)

/-- A line leaves a call in setup for HOST with its optional parts removed (R86, steps 1 to 4). -/
def Line.leaveCall (l : Line) : Line := { l with state := .host, conn := none, answerTimer := none }

/-- A call ends without an answer: both lines return to HOST, CALL_FAILED is posted, and the Standing List is told of both
lines (R86). Which line it takes first is open (log entry 12). -/
def State.failCall (s : State) (caller called : LineNo) (reason : FailReason) : State :=
  let t := ((s.modLine caller Line.leaveCall).modLine called Line.leaveCall).post .callFailed (lineByte caller)
    (lineByte called) (failInfo reason)
  if Config.calledEvaluatedFirst caller called then (t.evaluateLine called).evaluateLine caller
  else (t.evaluateLine caller).evaluateLine called

/-- The caller and the called line of a call or connection that a line takes part in, by the line's role (R58). -/
def callerCalled (x : LineNo) (c : Connection) : LineNo × LineNo :=
  match c.role with
  | .caller => (x, c.peer)
  | .called => (c.peer, x)

end Sys2Proof.Machine
end

