-- ==== Sys2Proof/Machine/Operands.lean ====
section
/-! DEFINITION. Parameters of commands and fields of the configuration image: the bytes the spec allows and what they stand
for (R16, R17, R35, R53, R78, R135, R150). -/

namespace Sys2Proof.Machine

/-! ### Bytes to settings -/

def dataBitsOf (b : Byte) : Option DataBits :=
  if b = 7 then some .seven else if b = 8 then some .eight else none

def parityOf (b : Byte) : Option Parity :=
  if b = 0 then some .none else if b = 1 then some .even else if b = 2 then some .odd else none

def stopBitsOf (b : Byte) : Option StopBits :=
  if b = 1 then some .one else if b = 2 then some .two else none

/-- A rate index, 0 to 11 (R3). -/
def rateOf (b : Byte) : Option (Fin 12) := if h : b.toNat < 12 then some ⟨b.toNat, h⟩ else none

def onOffOf (b : Byte) : Option Bool := if b = 0 then some false else if b = 1 then some true else none

def methodOf (b : Byte) : Option Method :=
  if b = 0 then some .none else if b = 1 then some .lines else if b = 2 then some .inband else none

/-- A format from data bits, parity, stop bits and rate index (R16). -/
def formatOf (data parity stop rate : Byte) : Option Format := do
  let d ← dataBitsOf data
  let p ← parityOf parity
  let t ← stopBitsOf stop
  let r ← rateOf rate
  return { dataBits := d, parity := p, stopBits := t, rate := r }

/-- Hold settings: the codes differ, the high mark is 2 to 128, and the low mark 0 to 126 and at most the high mark minus 2
(R41, R53). -/
def holdOf (method pause resume high low : Byte) : Option HoldSettings := do
  let m ← methodOf method
  if pause ≠ resume ∧ 2 ≤ high.toNat ∧ high.toNat ≤ 128 ∧ low.toNat ≤ 126 ∧ low.toNat + 2 ≤ high.toNat then
    return { method := m, pauseCode := pause, resumeCode := resume, highMark := high, lowMark := low }
  else none

/-- Receive threshold and break length are in range; the other two timing settings are any byte (R17). -/
def timingOk (rxThreshold breakLength : Byte) : Bool :=
  decide (1 ≤ rxThreshold.toNat) && decide (1 ≤ breakLength.toNat) && decide (breakLength.toNat ≤ 25)

/-- One queue's reserve and limit are in range, and the reserve is at most the limit (R22, R35). -/
def quotaOk (reserve limit : Byte) : Bool :=
  decide (reserve.toNat ≤ 12) && decide (1 ≤ limit.toNat) && decide (limit.toNat ≤ 64)
    && decide (reserve.toNat ≤ limit.toNat)

/-- Escape count and guard are in range (R78, R135). -/
def profileOk (count guardTime : Byte) : Bool := decide (count.toNat ≤ 4) && decide (guardTime.toNat ≤ 250)

/-- The break action of a flag bit: 1 means RELEASE (R78). -/
def breakActionOf (b : Bool) : BreakAction := if b then .release else .forward

/-! ### Settings to bytes -/

def dataBitsCode : DataBits → Byte | .seven => 7 | .eight => 8
def parityCode : Parity → Byte | .none => 0 | .even => 1 | .odd => 2
def stopBitsCode : StopBits → Byte | .one => 1 | .two => 2
def methodCode : Method → Byte | .none => 0 | .lines => 1 | .inband => 2
def onOffCode (b : Bool) : Byte := if b then 1 else 0
def slotByte (i : SlotNo) : Byte := BitVec.ofNat 8 i.val

/-! ### CONNECT (R78) -/

/-- The optional parts that call acceptance writes into the record of one line (R58, R80). -/
def orderedPart (s : State) (peer : LineNo) (role : Role) : Connection :=
  { peer := peer, role := role, origin := .ordered, escChar := s.param 3, escCount := s.param 4, guardTime := s.param 5
    monitorFlag := match role with | .caller => (s.param 6).getLsbD 0 | .called => (s.param 6).getLsbD 1
    breakAction := breakActionOf ((s.param 6).getLsbD 2), idleLimit := s.param 7 }

/-- P2, P4, P5 and P6 of CONNECT are in range (R79, check 3). -/
def connectOk (s : State) : Bool :=
  decide (1 ≤ (s.param 2).toNat) && decide ((s.param 2).toNat ≤ 60) && profileOk (s.param 4) (s.param 5)
    && s.param 6 &&& 0xF8 == 0

/-! ### STANDING_PUT (R135) -/

/-- The contents that P3 to P7 give for two lines (R135). -/
def contentsOf (s : State) (a b : LineNo) : Contents :=
  { lineA := a, lineB := b, escChar := s.param 3, escCount := s.param 4, guardTime := s.param 5
    monitorA := (s.param 6).getLsbD 0, monitorB := (s.param 6).getLsbD 1
    breakAction := breakActionOf ((s.param 6).getLsbD 2), idleLimit := s.param 7
    armAtStart := (s.param 6).getLsbD 3 }

/-- P4, P5 and P6 of STANDING_PUT are in range (R135, check 3). -/
def standingOk (s : State) : Bool := profileOk (s.param 4) (s.param 5) && s.param 6 &&& 0xF0 == 0

/-- A record's flags in the bit positions of STANDING_PUT (R135, R138). -/
def contentsFlags (c : Contents) : Byte :=
  bitAt 0 c.monitorA ||| bitAt 1 c.monitorB ||| bitAt 2 (c.breakAction == .release) ||| bitAt 3 c.armAtStart

end Sys2Proof.Machine
end

