-- ==== Sys2Proof/Machine/Frame.lean ====
section
/-! DEFINITION. Frames on TXDn and RXDn (R3, R4), and the receiver's classification of a completed frame (R6). A bit is true
for marking. -/

namespace Sys2Proof.Machine

/-- Data bits a frame carries (R4). -/
def dataWidth : DataBits → Nat
  | .seven => 7
  | .eight => 8

/-- The value cut to what the line carries: the low 7 bits on a 7-bit line (R4). -/
def carried (d : DataBits) (v : Byte) : Byte :=
  match d with
  | .seven => v &&& 0x7F
  | .eight => v

/-- The data bits of a frame, least significant first (R4). -/
def frameDataBits (d : DataBits) (v : Byte) : List Bool :=
  match d with
  | .seven => [v.getLsbD 0, v.getLsbD 1, v.getLsbD 2, v.getLsbD 3, v.getLsbD 4, v.getLsbD 5, v.getLsbD 6]
  | .eight =>
    [v.getLsbD 0, v.getLsbD 1, v.getLsbD 2, v.getLsbD 3, v.getLsbD 4, v.getLsbD 5, v.getLsbD 6, v.getLsbD 7]

/-- An odd number of the bits are marking. -/
def oddMarks (bits : List Bool) : Bool := bits.foldl xor false

/-- The parity bit of a frame, none with parity NONE (R4). -/
def parityBit (p : Parity) (bits : List Bool) : Option Bool :=
  match p with
  | .none => none
  | .even => some (oddMarks bits)
  | .odd => some (!oddMarks bits)

/-- Stop bits of a frame (R4). -/
def stopCount : StopBits → Nat
  | .one => 1
  | .two => 2

/-- The whole frame of a value in the order of the wire: start, data, parity if any, stop (R4, R10). -/
def frameBits (fmt : Format) (v : Byte) : List Bool :=
  let bits := frameDataBits fmt.dataBits v
  [false] ++ bits ++ (parityBit fmt.parity bits).toList ++ List.replicate (stopCount fmt.stopBits) true

/-- Character time of a format in bit times (R4). -/
def characterBits (fmt : Format) : Nat :=
  1 + dataWidth fmt.dataBits + (match fmt.parity with | .none => 0 | _ => 1) + stopCount fmt.stopBits

/-- Character time of a format in periods of XCLK (R3, R4). -/
def characterClocks (fmt : Format) : Nat := characterBits fmt * Config.rateDivisor fmt.rate

/-- What TXDn carries while the transmitter is busy: the frame of its character or code, spacing for a break, marking for
one character time for its tail (R9 to R11). Nothing while it is idle and TXDn marks. -/
def TxState.wire : TxState → List Bool
  | .idle => []
  | .char v fmt => frameBits fmt v
  | .flow c fmt => frameBits fmt c
  | .breakSpacing _ => [false]
  | .breakTail fmt => List.replicate (characterBits fmt) true

/-- A completed frame is a break: data bits, parity bit if any, and stop bit all spacing (R6, case 1). -/
def frameIsBreak (fmt : Format) (data : Byte) (parity stop : Bool) : Bool :=
  !stop && carried fmt.dataBits data == 0 && (fmt.parity == .none || !parity)

/-- A completed frame has a spacing stop bit or a parity bit that does not match (R6, case 2). -/
def frameIsFaulty (fmt : Format) (data : Byte) (parity stop : Bool) : Bool :=
  !stop || (match parityBit fmt.parity (frameDataBits fmt.dataBits data) with
    | none => false
    | some p => p != parity)

/-- The entry a completed frame delivers (R6). -/
def classify (fmt : Format) (data : Byte) (parity stop : Bool) : Entry :=
  if frameIsBreak fmt data parity stop then { kind := .brk, value := 0 }
  else if frameIsFaulty fmt data parity stop then { kind := .error, value := carried fmt.dataBits data }
  else { kind := .data, value := carried fmt.dataBits data }

/-- The receiver after a completed frame: BREAK after a break, IDLE otherwise (R6). -/
def rxAfter (fmt : Format) (e : Entry) : RxState :=
  match e.kind with
  | .brk => .breakWait fmt
  | .data | .error => .idle []

end Sys2Proof.Machine
end

