-- ==== Sys2Proof/Machine/Transmit.lean ====
section
/-! DEFINITION. The transmitter's beginning of items (R9), and appends and discards handed on to their neighbours (R30). -/

namespace Sys2Proof.Machine

/-- The transmitter begins an entry removed from its TQ: a DATA or ERROR entry as a character, a BREAK entry as a break with
the break timer started at the break length; format and length are those then in force (R9 to R12). -/
def beginEntry (e : Entry) (l : Line) : Line :=
  match e.kind with
  | .data | .error => { l with tx := .char e.value l.settings.format }
  | .brk => { l with tx := .breakSpacing l.settings.format, breakTimer := startTimer l.settings.breakLength.toNat }

/-- The transmitter begins the oldest TQ entry; the removal is handed on (R9, R26, R30). -/
def State.beginOldest (s : State) (n : LineNo) : State :=
  match s.removeOldest (.tq n) with
  | none => s
  | some (e, t) =>
    let u := (t.modLine n (beginEntry e)).tellHold (.tq n)
    if (u.line n).tq.entries.isEmpty then u.tqEmptied n else u

/-- An idle transmitter begins an item if one is available and permitted: a pending flow code first, otherwise the oldest TQ
entry unless the line is output-held (R9, R48). -/
def State.kickTx (s : State) (n : LineNo) : State :=
  if (s.line n).tx != .idle then s
  else if (s.line n).codePending then s.beginCode n
  else if (s.line n).outputHeld then s
  else s.beginOldest n

/-- An accepted append handed on: to the hold neighbour, and to the transmitter of a TQ that was empty (R30). -/
def State.tellAppended (s : State) (q : QueueId) (wasEmpty : Bool) : State :=
  match q with
  | .rq _ => s.tellHold q
  | .tq n => if wasEmpty then (s.tellHold q).kickTx n else s.tellHold q

/-- An append with its hand-on, none when the append rule refuses it. -/
def State.appendTold (s : State) (q : QueueId) (e : Entry) : Option State :=
  (s.append q e).map fun t => t.tellAppended q (s.queue q).entries.isEmpty

/-- A discard of an RQ handed on (R28, R30). -/
def State.discardRq (s : State) (n : LineNo) : State := (s.discard (.rq n)).tellHold (.rq n)

/-- A discard of a HOST line's TQ handed on (R28, R30, R172). -/
def State.discardTq (s : State) (n : LineNo) : State := ((s.discard (.tq n)).tellHold (.tq n)).tqEmptied n

/-- The rest of a DRAINING line's TQ is discarded into the tally, the drain timer stops or has expired, and the drain is
checked (R111, R112). -/
def State.cutDrain (s : State) (n : LineNo) : State :=
  (((s.modLine n fun l => { l with drainTimer := none, tally := min 255 (l.tally + l.tq.occupancy) }).discard
    (.tq n)).tellHold (.tq n)).tqEmptied n

end Sys2Proof.Machine
end

