-- ==== Sys2Proof/Machine/Release.lean ====
section
/-! DEFINITION. Overruns, holding lists handed over, and the release step (R67 to R69, R103). -/

namespace Sys2Proof.Machine

/-! ### Overrun (R67, R68) -/

/-- An overrun of a line: OVERRUN is posted and the flag set if the flag was clear (R67). -/
def State.noteOverrun (s : State) (x : LineNo) (place : OverrunPlace) : State :=
  if (s.line x).overrun then s
  else (s.modLine x fun l => { l with overrun := true }).post .overrun (lineByte x) noLine (overrunInfo place)

/-- An entry received on the line has been stored: the overrun-reported flag clears (R68). -/
def State.clearOverrun (s : State) (x : LineNo) : State := s.modLine x fun l => { l with overrun := false }

/-- An append made by routing for a line, to a queue: an accepted append clears the flag and is handed on, a refused one is
an overrun (R67, R68). -/
def State.routeAppend (s : State) (x : LineNo) (q : QueueId) (place : OverrunPlace) (e : Entry) : State :=
  match s.append q e with
  | none => s.noteOverrun x place
  | some t => (t.clearOverrun x).tellAppended q (s.queue q).entries.isEmpty

/-! ### Holding lists -/

/-- A batch appended in order, each entry against what the previous one left and handed to the hold neighbour; after the
first refusal the rest is refused. The number refused, and the state (R25). -/
def State.appendBatch (s : State) (q : QueueId) : List Entry → Nat × State
  | [] => (0, s)
  | e :: es =>
    match s.append q e with
    | none => (es.length + 1, s)
    | some t => (t.tellHold q).appendBatch q es

/-- A line's holding list handed over as one batch to a queue: accepted entries clear the overrun-reported flag, the
transmitter of a TQ that was empty begins after the whole batch, which is the model's reading (log entry 13), and refused entries
are one overrun (R25, R69, R127 step 1). The list is then empty. -/
def State.handOver (s : State) (x y : LineNo) : State :=
  let batch := (s.line x).monitor.holding
  let wasEmpty := (s.line y).tq.entries.isEmpty
  let t := s.modLine x fun l => { l with monitor := { l.monitor with holding := [], count := 0 } }
  let r := t.appendBatch (.tq y) batch
  let u := if r.1 < batch.length then r.2.clearOverrun x else r.2
  let v := if r.1 < batch.length ∧ wasEmpty = true then u.kickTx y else u
  if 0 < r.1 then v.noteOverrun x .peerTq else v

/-! ### The release step (R103) -/

/-- What a line keeps of a connection released: DRAINING, optional parts removed, monitor OFF, idle timer stopped, drain
timer started at the drain limit, tally 0 (R103, steps 2 to 5). -/
def leaveBridge (drainLimit : Byte) (l : Line) : Line :=
  { l with state := .draining, conn := none, monitor := .offValue, idleTimer := none,
           drainTimer := startTimer (drainLimit.toNat * Config.ticksPerDrainUnit), tally := 0 }

/-- A standing record after a release of its connection (R144). -/
def recordAfterRelease (reason : ReleaseReason) : StandingRecord → StandingRecord
  | .active c => match reason with
    | .readyLost | .idle => .armed c
    | .host | .escape | .brk => .idle c
  | .empty => .empty
  | .idle c => .idle c
  | .armed c => .armed c

/-- The Standing List is told of the release of a connection (R103 step 8, R144). -/
def State.tellStanding (s : State) (origin : Origin) (reason : ReleaseReason) : State :=
  match origin with
  | .ordered => s
  | .standing slot => s.setRecord slot (recordAfterRelease reason (s.record slot))

/-- The release step for the connection of line x, where the cause arose, with its peer (R103). On reason ESCAPE the
detecting monitor's list has been discarded before (R128), so its hand-over appends nothing. That x's list is handed over before
its peer's is the model's reading (log entry 11). -/
def State.releaseStep (s : State) (x : LineNo) (c : Connection) (reason : ReleaseReason) : State :=
  let y := c.peer
  let s1 := (s.handOver x y).handOver y x
  let s5 := (s1.modLine x (leaveBridge s1.drainLimit)).modLine y (leaveBridge s1.drainLimit)
  let s6 := (s5.holdEval x).holdEval y
  let s7 := s6.post .released (lineByte x) (lineByte y) (releaseInfo reason)
  let s8 := s7.tellStanding c.origin reason
  (s8.drainCheck x).drainCheck y

/-- A BRIDGED line's connection is released; a line that is not BRIDGED has none, and nothing happens (R106). -/
def State.release (s : State) (x : LineNo) (reason : ReleaseReason) : State :=
  match (s.line x).state, (s.line x).conn with
  | .bridged, some c => s.releaseStep x c reason
  | _, _ => s

end Sys2Proof.Machine
end

