-- ==== Sys2Proof/Machine/Route.lean ====
section
/-! DEFINITION. The receive path: delivery, routing, and the escape monitors (R8, R51, R65, R66, R119 to R128). -/

namespace Sys2Proof.Machine

/-- Every entry received on a bridged line restarts the connection's idle timer at its full setting (R66, R99). -/
def State.restartIdle (s : State) (x : LineNo) (c : Connection) : State :=
  s.modLine (callerCalled x c).1 fun l =>
    { l with idleTimer := startTimer (c.idleLimit.toNat * Config.ticksPerMinute) }

/-- Routing passes an entry of line x on toward its peer: DATA and ERROR to the peer's TQ, a BREAK by the break action
(R66, R95, R97, R98). -/
def State.passOn (s : State) (x : LineNo) (c : Connection) (e : Entry) : State :=
  match e.kind, c.breakAction with
  | .brk, .release => s.release x .brk
  | .brk, .forward => s.routeAppend x (.tq c.peer) .peerTq e
  | .data, _ => s.routeAppend x (.tq c.peer) .peerTq e
  | .error, _ => s.routeAppend x (.tq c.peer) .peerTq e

/-- The entry is an escape character for the connection (R120). -/
def isEscape (c : Connection) (e : Entry) : Bool := e.kind == .data && e.value == c.escChar

/-- The silence timer as a transition starts or restarts it: at G, or not at all if G is 0 (R121). -/
def guardTimer (c : Connection) : Timer := startTimer c.guardTime.toNat

/-- The monitor of a line without a match in progress: SETTLING with the timer started, or READY if G is 0 (R123, R124). -/
def State.settle (s : State) (x : LineNo) (c : Connection) : State :=
  s.modLine x fun l => { l with monitor := startedMonitor c }

/-- The match fails on an expiry or an entry: the holding list is handed over as one batch (R127, step 1). -/
def State.failMatch (s : State) (x : LineNo) (c : Connection) : State := s.handOver x c.peer

/-- The escape is detected: the held entries are discarded and the connection is released with reason ESCAPE (R128). -/
def State.detectEscape (s : State) (x : LineNo) : State :=
  (s.modLine x fun l => { l with monitor := { l.monitor with holding := [], count := 0 } }).release x .escape

/-- An escape character is held: the count grows; at n the monitor confirms, or detects at once if G is 0; below n it counts
on (R123, R124). -/
def State.holdEscape (s : State) (x : LineNo) (c : Connection) (e : Entry) : State :=
  let m := (s.line x).monitor
  let k := m.count + 1
  let t := s.modLine x fun l =>
    { l with monitor := { state := if k = c.escCount.toNat then .confirming else .counting, count := k,
                          silence := guardTimer c, holding := m.holding ++ [e] } }
  if k = c.escCount.toNat ∧ c.guardTime = 0 then t.detectEscape x else t

/-- The escape monitor of line x takes an entry (R119 to R125); an OFF monitor passes it straight on. -/
def State.monitorTake (s : State) (x : LineNo) (c : Connection) (e : Entry) : State :=
  match (s.line x).monitor.state with
  | .off => s.passOn x c e
  | .settling =>
    (s.modLine x fun l => { l with monitor := { l.monitor with silence := guardTimer c } }).passOn x c e
  | .ready => if isEscape c e then s.holdEscape x c e else (s.settle x c).passOn x c e
  | .counting =>
    if isEscape c e then s.holdEscape x c e else ((s.failMatch x c).settle x c).passOn x c e
  | .confirming => ((s.failMatch x c).settle x c).passOn x c e

/-- Routing of an entry received on line x by the line's state at that moment (R65, R66). A CLOSED line's receiver is
DISABLED and delivers nothing (R62). -/
def State.route (s : State) (x : LineNo) (e : Entry) : State :=
  match (s.line x).state, (s.line x).conn with
  | .closed, _ => s
  | .bridged, some c => (s.restartIdle x c).monitorTake x c e
  | _, _ => s.routeAppend x (.rq x) .ownRq e

/-- The Hold Logic consumes a received DATA entry that equals a flow code of an INBAND line, none if it does not (R51). A
resume code may let the transmitter go on (R9, R50). -/
def State.consumeCode (s : State) (x : LineNo) (e : Entry) : Option State :=
  let h := (s.line x).hold
  if h.method = .inband ∧ e.kind = .data then
    if e.value = h.pauseCode then some (s.modLine x fun l => { l with receivedPause := true })
    else if e.value = h.resumeCode then some ((s.modLine x fun l => { l with receivedPause := false }).kickTx x)
    else none
  else none

/-- Delivery of a completed entry (R8): first to the Hold Logic, then to routing. -/
def State.deliver (s : State) (x : LineNo) (e : Entry) : State :=
  match s.consumeCode x e with
  | some t => t
  | none => s.route x e

end Sys2Proof.Machine
end

