-- ==== Sys2Proof/Machine/LineCommands.lean ====
section
/-! DEFINITION. The commands that act on one line: OPEN_LINE, CLOSE_LINE, QUERY_LINE, SET_FORMAT, SET_TIMING, SET_FLOW,
SET_QUOTA, SEND_BREAK, FLUSH (R16, R17, R35, R53, R70 to R74, R171, R172). -/

namespace Sys2Proof.Machine

/-- What a step answers: a register access or an event of the part, which is not taken while RESET# is low (R165; log
entry 9). -/
def whileRunning (s : State) (f : State → State) : Host.Outcome State Fault Refusal :=
  .next (if s.resetLow then s else f s)

/-- The checks LOADING and BAD_LINE that begin the commands naming one line in P0. -/
def State.checkLine (s : State) (f : LineNo → State) : State :=
  if s.isLoading then s.leave .loading
  else match lineOfByte (s.param 0) with
    | none => s.leave .badLine
    | some n => f n

/-- The line is CLOSED or HOST: its settings may be changed (R16, R17, R53). -/
def State.settable (s : State) (n : LineNo) : Bool := (s.line n).state == .closed || (s.line n).state == .host

/-- OPEN_LINE (R70). -/
def cmdOpenLine (s : State) : State :=
  s.checkLine fun n =>
    if (s.line n).state = .closed then (s.openLine n).leave .done else s.leave .wrongState

/-- A line put out of service: both queues discarded, the receiver DISABLED, the hold working state reset, the
overrun-reported flag cleared; the transmitter finishes its item (R40, R55, R72). That the RQ returns its cells before the TQ
is the model's choice (log entry 29). -/
def State.closeLine (s : State) (n : LineNo) : State :=
  ((s.discard (.rq n)).discard (.tq n)).modLine n fun l =>
    { l with state := .closed, rx := .disabled, inputHeld := false, announced := .running, receivedPause := false,
             overrun := false }

/-- CLOSE_LINE (R71, R72). -/
def cmdCloseLine (s : State) : State :=
  s.checkLine fun n =>
    match (s.line n).state with
    | .closed => s.leave .notOpen
    | .host => (s.closeLine n).leave .done
    | .calling | .offered | .bridged | .draining => s.leave .wrongState

/-- Low and high byte of a count (R74). -/
def lowByte (k : Nat) : Byte := BitVec.ofNat 8 k
def highByte (k : Nat) : Byte := BitVec.ofNat 8 (k / 256)

/-- The report of QUERY_LINE in P0 to P7 (R74). -/
def State.lineReport (s : State) (n : LineNo) : Vector Byte 8 :=
  #v[lineStateCode (s.line n).state,
     (match (s.line n).conn with | some c => lineByte c.peer | none => noLine),
     lowByte (s.line n).rq.occupancy, highByte (s.line n).rq.occupancy,
     lowByte (s.line n).tq.occupancy, highByte (s.line n).tq.occupancy,
     s.lineFlags n, matcherCode (s.line n).monitor.state]

/-- The parameter registers overwritten by a report (R168). -/
def State.report (s : State) (v : Vector Byte 8) : State := s.modHost fun h => { h with params := v }

/-- QUERY_LINE (R74). -/
def cmdQueryLine (s : State) : State :=
  s.checkLine fun n => (s.report (s.lineReport n)).leave .done

/-- A receiver that looks for a start edge notes the format that SET_FORMAT replaces, for an edge that came before (R5, R12;
log entry 6). -/
def RxState.noteFormat (replaced : Format) : RxState → RxState
  | .idle earlier => .idle (replaced :: earlier)
  | .disabled => .disabled
  | .waitMark fmt => .waitMark fmt
  | .frame fmt => .frame fmt
  | .breakWait fmt => .breakWait fmt

/-- SET_FORMAT (R16). -/
def cmdSetFormat (s : State) : State :=
  s.checkLine fun n =>
    match formatOf (s.param 1) (s.param 2) (s.param 3) (s.param 4), onOffOf (s.param 5) with
    | some fmt, some opened =>
      if s.settable n then
        (s.modLine n fun l => { l with settings := { l.settings with format := fmt, openAtStart := opened }
                                       rx := l.rx.noteFormat l.settings.format }).leave .done
      else s.leave .wrongState
    | _, _ => s.leave .badValue

/-- SET_TIMING (R17). -/
def cmdSetTiming (s : State) : State :=
  s.checkLine fun n =>
    if timingOk (s.param 1) (s.param 3) then
      if s.settable n then
        (s.modLine n fun l =>
          { l with settings := { l.settings with rxThreshold := s.param 1, txThreshold := s.param 2,
                                                 breakLength := s.param 3, readyGrace := s.param 4 } }).leave .done
      else s.leave .wrongState
    else s.leave .badValue

/-- The Hold Logic brought into line with new hold settings: input-held re-evaluated, a changed method's working state reset,
and a pending code or a queued entry begun (R54). -/
def State.applyFlow (s : State) (n : LineNo) (h : HoldSettings) : State :=
  let changed := (s.line n).hold.method != h.method
  let t := (s.modLine n fun l => { l with hold := h }).compareMarks n
  (if changed then t.modLine n fun l => { l with announced := .running, receivedPause := false } else t).kickTx n

/-- SET_FLOW (R53, R54). -/
def cmdSetFlow (s : State) : State :=
  s.checkLine fun n =>
    match holdOf (s.param 1) (s.param 2) (s.param 3) (s.param 4) (s.param 5) with
    | none => s.leave .badValue
    | some h => if s.settable n then (s.applyFlow n h).leave .done else s.leave .wrongState

/-- SET_QUOTA (R35, R36): checks 4 and 5 judge the reserves and the unmet total as they would be. -/
def cmdSetQuota (s : State) : State :=
  s.checkLine fun n =>
    if quotaOk (s.param 1) (s.param 2) && quotaOk (s.param 3) (s.param 4) then
      let t := s.setQuotas n (s.param 1) (s.param 2) (s.param 3) (s.param 4)
      if Config.cellCount < t.reserveTotal then s.leave .noQuota
      else if s.freeCount < t.unmetTotal then s.leave .noQuota
      else t.leave .done
    else s.leave .badValue

/-- SEND_BREAK (R171). -/
def cmdSendBreak (s : State) : State :=
  s.checkLine fun n =>
    match (s.line n).state with
    | .closed => s.leave .notOpen
    | .calling | .offered | .bridged | .draining => s.leave .wrongState
    | .host =>
      match s.appendTold (.tq n) { kind := .brk, value := 0 } with
      | none => s.leave .noQuota
      | some t => t.leave .done

/-- FLUSH (R172): RQ before TQ when both are named. -/
def cmdFlush (s : State) : State :=
  s.checkLine fun n =>
    if s.param 1 = 0 ∨ 3 < (s.param 1).toNat then s.leave .badValue
    else if (s.line n).state = .closed then s.leave .notOpen
    else if s.param 1 ≠ 1 ∧ (s.line n).state ≠ .host then s.leave .wrongState
    else
      let t := if s.param 1 = 2 then s else s.discardRq n
      (if s.param 1 = 1 then t else t.discardTq n).leave .done

def execOpenLine (s : State) : Host.Outcome State Fault Refusal := whileRunning s cmdOpenLine
def execCloseLine (s : State) : Host.Outcome State Fault Refusal := whileRunning s cmdCloseLine
def execQueryLine (s : State) : Host.Outcome State Fault Refusal := whileRunning s cmdQueryLine
def execSetFormat (s : State) : Host.Outcome State Fault Refusal := whileRunning s cmdSetFormat
def execSetTiming (s : State) : Host.Outcome State Fault Refusal := whileRunning s cmdSetTiming
def execSetFlow (s : State) : Host.Outcome State Fault Refusal := whileRunning s cmdSetFlow
def execSetQuota (s : State) : Host.Outcome State Fault Refusal := whileRunning s cmdSetQuota
def execSendBreak (s : State) : Host.Outcome State Fault Refusal := whileRunning s cmdSendBreak
def execFlush (s : State) : Host.Outcome State Fault Refusal := whileRunning s cmdFlush

end Sys2Proof.Machine
end

