-- ==== Sys2Proof/Machine/CallCommands.lean ====
section
/-! DEFINITION. Calls and connections: CONNECT, RELEASE, SET_PART, and the expiries of the answer, idle, drain and silence
timers (R75, R78 to R88, R100, R102, R111, R112, R116, R121). An expiry is taken when its timer has counted its ticks
(R2); otherwise it does not arise and nothing changes (log entries 3 and 4). -/

namespace Sys2Proof.Machine

/-- Call acceptance: both records receive their optional parts (R58, R80). -/
def State.acceptCall (s : State) (caller called : LineNo) : State :=
  (s.modLine caller fun l => { l with conn := some (orderedPart s called .caller) }).modLine called fun l =>
    { l with conn := some (orderedPart s caller .called) }

/-- The call is offered: CALLING and OFFERED, and the answer timer started at P2 seconds (R80). -/
def State.offerCall (s : State) (caller called : LineNo) : State :=
  ((s.acceptCall caller called).modLine caller fun l =>
    { l with state := .calling, answerTimer := startTimer ((s.param 2).toNat * Config.ticksPerSecond) }).modLine called
      fun l => { l with state := .offered }

/-- CONNECT (R79 to R81). -/
def cmdConnect (s : State) : State :=
  if s.isLoading then s.leave .loading
  else match lineOfByte (s.param 0), lineOfByte (s.param 1) with
    | some caller, some called =>
      if caller = called then s.leave .badLine
      else if connectOk s = false then s.leave .badValue
      else if (s.line caller).state ≠ .host ∨ (s.line called).state ≠ .host then s.leave .wrongState
      else if s.reserved caller = true ∨ s.reserved called = true then s.leave .reservedLine
      else if (s.line caller).ready = false then s.leave .notReady
      else if (s.line called).ready then ((s.acceptCall caller called).answer caller called).leave .started
      else (s.offerCall caller called).leave .started
    | _, _ => s.leave .badLine

/-- A call in setup that a line takes part in ends without an answer (R86). -/
def State.endCall (s : State) (x : LineNo) (reason : FailReason) : State :=
  match (s.line x).conn with
  | some c => s.failCall (callerCalled x c).1 (callerCalled x c).2 reason
  | none => s

/-- RELEASE (R75, R88, R102, R112). -/
def cmdRelease (s : State) : State :=
  s.checkLine fun n =>
    match (s.line n).state with
    | .closed => s.leave .notOpen
    | .host => s.leave .wrongState
    | .calling | .offered => (s.endCall n .cancelled).leave .done
    | .bridged => (s.release n .host).leave .done
    | .draining => (s.cutDrain n).leave .done

/-- SET_PART (R116). -/
def cmdSetPart (s : State) : State :=
  if s.isLoading then s.leave .loading
  else if s.param 0 = 0 then s.leave .badValue
  else State.leave { s with drainLimit := s.param 0 } .done

/-- The answer timer expires while the caller is CALLING (R87). -/
def answerExpiry (n : LineNo) (s : State) : State :=
  if (s.line n).state = .calling ∧ timerDue (s.line n).answerTimer = true then s.endCall n .noAnswer else s

/-- The idle timer expires while the lines are BRIDGED (R100). -/
def idleExpiry (n : LineNo) (s : State) : State :=
  if timerDue (s.line n).idleTimer then s.release n .idle else s

/-- The drain timer expires while the line is DRAINING (R111). -/
def drainExpiry (n : LineNo) (s : State) : State :=
  if (s.line n).state = .draining ∧ timerDue (s.line n).drainTimer = true then s.cutDrain n else s

/-- A monitor's silence timer expires in SETTLING: READY, and the timer is stopped (R122). In COUNTING the match fails and
the monitor goes to READY (R124), in CONFIRMING the escape is detected (R125). -/
def silenceExpiry (n : LineNo) (s : State) : State :=
  if timerDue (s.line n).monitor.silence then
    match (s.line n).monitor.state, (s.line n).conn with
    | .settling, _ => s.modLine n fun l => { l with monitor := { l.monitor with state := .ready, silence := none } }
    | .counting, some c =>
      (s.failMatch n c).modLine n fun l => { l with monitor := { l.monitor with state := .ready, silence := none } }
    | .confirming, some _ => s.detectEscape n
    | _, _ => s
  else s

def execConnect (s : State) : Host.Outcome State Fault Refusal := whileRunning s cmdConnect
def execRelease (s : State) : Host.Outcome State Fault Refusal := whileRunning s cmdRelease
def execSetPart (s : State) : Host.Outcome State Fault Refusal := whileRunning s cmdSetPart
def execAnswerTimerExpiry (n : LineNo) (s : State) : Host.Outcome State Fault Refusal := whileRunning s (answerExpiry n)
def execIdleTimerExpiry (n : LineNo) (s : State) : Host.Outcome State Fault Refusal := whileRunning s (idleExpiry n)
def execDrainTimerExpiry (n : LineNo) (s : State) : Host.Outcome State Fault Refusal := whileRunning s (drainExpiry n)
def execSilenceTimerExpiry (n : LineNo) (s : State) : Host.Outcome State Fault Refusal := whileRunning s (silenceExpiry n)

end Sys2Proof.Machine
end

