-- ==== Sys2Proof/Machine/Image.lean ====
section
/-! DEFINITION. The configuration image (R150): how it is written (R159), when it is whole (R151), how its fields are judged
(R152, R154), the writes of a save (R160), and the external memory that receives them (R149). -/

namespace Sys2Proof.Machine

/-! ### Writing the image (R159) -/

/-- A line record of the image, 24 bytes (R150). -/
def lineImage (l : Line) : List Byte :=
  [onOffCode l.settings.openAtStart, dataBitsCode l.settings.format.dataBits, parityCode l.settings.format.parity,
   stopBitsCode l.settings.format.stopBits, BitVec.ofNat 8 l.settings.format.rate.val, methodCode l.hold.method,
   l.hold.pauseCode, l.hold.resumeCode, l.hold.highMark, l.hold.lowMark, l.rq.reserve, l.rq.limit, l.tq.reserve,
   l.tq.limit, l.settings.rxThreshold, l.settings.txThreshold, l.settings.breakLength, l.settings.readyGrace,
   0, 0, 0, 0, 0, 0]

/-- The contents of a saved standing record behind its start state, and its unused bytes (R150). -/
def contentsImage (c : Contents) : List Byte :=
  [lineByte c.lineA, lineByte c.lineB, c.escChar, c.escCount, c.guardTime,
   bitAt 0 c.monitorA ||| bitAt 1 c.monitorB ||| bitAt 2 (c.breakAction == .release), c.idleLimit, 0, 0, 0, 0, 0, 0, 0, 0]

/-- The start state saved for a record that is ARMED or ACTIVE (R159). -/
def startState (c : Contents) : Byte := if c.armAtStart then 2 else 1

/-- A standing record of the image, 16 bytes (R150, R159). -/
def recordImage : StandingRecord → List Byte
  | .empty => List.replicate 16 0
  | .idle c => 1 :: contentsImage c
  | .armed c => startState c :: contentsImage c
  | .active c => startState c :: contentsImage c

/-- The 8-bit sum of bytes. -/
def byteSum (bs : List Byte) : Byte := bs.foldl (· + ·) 0

/-- Bytes 005h to 10Fh of the image. -/
def imageBody (s : State) : List Byte :=
  [s.drainLimit, 0, 0, 0, 0, 0, 0, 0, 0, 0, 0] ++ (allLines.flatMap fun n => lineImage (s.line n))
    ++ (allSlots.flatMap fun i => recordImage (s.record i))

/-- The snapshot of a save: the image with VALID 00h and the checksum that makes the sum of all bytes except 003h zero
(R151, R159). -/
def saveImage (s : State) : List Byte :=
  [0x53, 0x58, 0x01, 0x00, 0 - (0x53 + 0x58 + 0x01 + byteSum (imageBody s))] ++ imageBody s

/-! ### The image is whole (R151) -/

/-- The byte of the image at an offset. -/
def imageByte (img : List Byte) (i : Nat) : Byte := img.getD i 0

/-- Conditions 1 to 3 of R151: marker, signature, version. -/
def imageMarked (img : List Byte) : Bool :=
  imageByte img 0x003 == 0xA5 && imageByte img 0x000 == 0x53 && imageByte img 0x001 == 0x58 && imageByte img 0x002 == 0x01

/-- Condition 4 of R151: the sum of all 272 bytes except the one at 003h is 00h. -/
def imageSums (img : List Byte) : Bool :=
  byteSum (img.take Config.imageSize) - imageByte img 0x003 == 0

/-! ### Judging the fields (R152) -/

/-- A line record that has been judged good. -/
structure LineImage where
  settings  : LineSettings
  hold      : HoldSettings
  rqReserve : Byte
  rqLimit   : Byte
  tqReserve : Byte
  tqLimit   : Byte
  deriving DecidableEq, Repr

/-- An image whose fields have all been judged good. -/
structure GoodImage where
  drainLimit : Byte
  lines      : List LineImage
  records    : List StandingRecord
  deriving DecidableEq, Repr

/-- Line n's record of an image, none if a field is out of its values (R150, R152). -/
def readLineImage (img : List Byte) (n : Nat) : Option LineImage := do
  let at_ := fun i => imageByte img (0x010 + 0x18 * n + i)
  let opened ← onOffOf (at_ 0)
  let fmt ← formatOf (at_ 1) (at_ 2) (at_ 3) (at_ 4)
  let hold ← holdOf (at_ 5) (at_ 6) (at_ 7) (at_ 8) (at_ 9)
  if quotaOk (at_ 10) (at_ 11) && quotaOk (at_ 12) (at_ 13) && timingOk (at_ 14) (at_ 16) then
    return { settings := { format := fmt, openAtStart := opened, rxThreshold := at_ 14, txThreshold := at_ 15,
                           breakLength := at_ 16, readyGrace := at_ 17 }
             hold := hold, rqReserve := at_ 10, rqLimit := at_ 11, tqReserve := at_ 12, tqLimit := at_ 13 }
  else none

/-- Line records judged in order with the running sum of reserves: the good records, or the index that fails (R152). -/
def judgeLines (img : List Byte) : List Nat → Nat → Except Byte (List LineImage)
  | [], _ => .ok []
  | n :: ns, sum =>
    match readLineImage img n with
    | none => .error (BitVec.ofNat 8 n)
    | some l =>
      if 128 < sum + l.rqReserve.toNat + l.tqReserve.toNat then .error (BitVec.ofNat 8 n)
      else
        match judgeLines img ns (sum + l.rqReserve.toNat + l.tqReserve.toNat) with
        | .error i => .error i
        | .ok ls => .ok (l :: ls)

/-- Slot i's record of an image, none if a field of a record with start state 1 or 2 is out of its values (R150, R152). -/
def readRecordImage (img : List Byte) (i : Nat) : Option StandingRecord :=
  let at_ := fun k => imageByte img (0x0D0 + 0x10 * i + k)
  if at_ 0 = 0 then some .empty
  else
    match lineOfByte (at_ 1), lineOfByte (at_ 2) with
    | some a, some b =>
      if a ≠ b ∧ (at_ 0).toNat ≤ 2 ∧ profileOk (at_ 4) (at_ 5) = true ∧ at_ 6 &&& 0xF8 = 0 then
        let c : Contents :=
          { lineA := a, lineB := b, escChar := at_ 3, escCount := at_ 4, guardTime := at_ 5
            monitorA := (at_ 6).getLsbD 0, monitorB := (at_ 6).getLsbD 1
            breakAction := breakActionOf ((at_ 6).getLsbD 2), idleLimit := at_ 7
            armAtStart := decide (at_ 0 = 2) }
        some (if at_ 0 = 2 then .armed c else .idle c)
      else none
    | _, _ => none

/-- The lines that a record to be armed at start names. -/
def armedLines : StandingRecord → List LineNo
  | .armed c => [c.lineA, c.lineB]
  | .empty => []
  | .idle _ => []
  | .active _ => []

/-- Standing records judged in order, with the lines already named by records to be armed at start (R152). -/
def judgeRecords (img : List Byte) : List Nat → List LineNo → Except Byte (List StandingRecord)
  | [], _ => .ok []
  | i :: is, named =>
    match readRecordImage img i with
    | none => .error (BitVec.ofNat 8 (8 + i))
    | some r =>
      if (armedLines r).any fun n => named.contains n then .error (BitVec.ofNat 8 (8 + i))
      else
        match judgeRecords img is (named ++ armedLines r) with
        | .error k => .error k
        | .ok rs => .ok (r :: rs)

/-- The fields of a whole image judged record by record: the good image, or the record index that fails (R152). -/
def judgeFields (img : List Byte) : Except Byte GoodImage :=
  if imageByte img 0x005 = 0 then .error noLine
  else
    match judgeLines img [0, 1, 2, 3, 4, 5, 6, 7] 0 with
    | .error i => .error i
    | .ok ls =>
      match judgeRecords img [0, 1, 2, 3] [] with
      | .error i => .error i
      | .ok rs => .ok { drainLimit := imageByte img 0x005, lines := ls, records := rs }

/-- The verdict on a load: a good image, or an outcome with its record index (R154). -/
def judgeImage (img : List Byte) : Except (LoadOutcome × Byte) GoodImage :=
  if imageMarked img = false then .error (.blank, noLine)
  else if imageSums img = false then .error (.badChecksum, noLine)
  else
    match judgeFields img with
    | .error i => .error (.badRecord, i)
    | .ok g => .ok g

/-! ### Transfers (R149, R160) -/

/-- The device select byte: 1010, zeros, bit 8 of the address, and 1 for a read or 0 for a write (R149). -/
def deviceSelect (address : Nat) (isRead : Bool) : Byte :=
  0xA0 ||| bitAt 1 (decide (256 ≤ address)) ||| bitAt 0 isRead

/-- Address and data bytes of write k of a save, k from 1 to 36 (R160). -/
def saveWrite (snapshot : List Byte) (k : Nat) : Nat × List Byte :=
  if k = 1 then (0x003, [0x00])
  else if k = Config.saveWrites then (0x003, [0xA5])
  else (8 * (k - 2), (snapshot.drop (8 * (k - 2))).take 8)

/-- The bytes the port sends for write k of a save (R149). -/
def saveWriteBytes (snapshot : List Byte) (k : Nat) : List Byte :=
  let w := saveWrite snapshot k
  [deviceSelect w.1 false, BitVec.ofNat 8 w.1] ++ w.2

/-- What the port does on MSCL and MSDA, one part of a transfer (R149). The port receives a byte and acknowledges it or not. -/
inductive BusAction where
  | releaseData
  | clockPulses (count : Nat)
  | startCondition
  | stopCondition
  | send (b : Byte)
  | receive (acknowledged : Bool)
  deriving DecidableEq, Repr

/-- The two ends of MSDA. -/
inductive BusEnd where
  | port | memory
  deriving DecidableEq, Repr

/-- What one part of a transfer is on the wires (R149): a start or stop condition, a period of MSCL with MSDA released, one
with a bit that its sender sets, the memory's bits being its own, or a ninth period, in which the receiver of the byte holds
MSDA low to acknowledge it. Whether the memory acknowledges is its own. -/
inductive BusPeriod where
  | startCondition
  | stopCondition
  | released
  | portBit (level : Bool)
  | memoryBit
  | acknowledge (receiver : BusEnd) (low : Option Bool)
  deriving DecidableEq, Repr

/-- The bits of a byte on MSDA, most significant first (R149). -/
def byteBits (b : Byte) : List Bool := [7, 6, 5, 4, 3, 2, 1, 0].map b.getLsbD

/-- The byte that eight bits on MSDA are, the first most significant (R149). -/
def byteOfBits (bits : List Bool) : Byte := bits.foldl (fun b bit => (b <<< 1) ||| (if bit then 1#8 else 0#8)) 0

/-- One part of a transfer on the wires; releasing MSDA takes no period (R149). -/
def BusAction.periods : BusAction → List BusPeriod
  | .releaseData => []
  | .clockPulses count => List.replicate count .released
  | .startCondition => [.startCondition]
  | .stopCondition => [.stopCondition]
  | .send b => (byteBits b).map BusPeriod.portBit ++ [.acknowledge .memory none]
  | .receive acknowledged => List.replicate 8 .memoryBit ++ [.acknowledge .port (some acknowledged)]

/-- The byte that one part of a transfer sends. -/
def BusAction.sent : BusAction → Option Byte
  | .send b => some b
  | .releaseData | .clockPulses _ | .startCondition | .stopCondition | .receive _ => none

/-- The bytes the port sends in a transfer, each of which the memory acknowledges or not (R149). -/
def sentBytes (transfer : List BusAction) : List Byte := transfer.filterMap BusAction.sent

/-- Bus recovery, at the start of every load and every save (R149). -/
def busRecovery : List BusAction := [.releaseData, .clockPulses 9, .stopCondition]

/-- The image read; its second start condition is the repeated start, and the port acknowledges each byte but the last
(R149). -/
def imageRead : List BusAction :=
  [.startCondition, .send (deviceSelect 0 false), .send 0x00, .startCondition, .send (deviceSelect 0 true)]
    ++ List.replicate (Config.imageSize - 1) (.receive true) ++ [.receive false, .stopCondition]

/-- Write k of a save (R149, R160). -/
def saveTransfer (snapshot : List Byte) (k : Nat) : List BusAction :=
  .startCondition :: (saveWriteBytes snapshot k).map BusAction.send ++ [.stopCondition]

/-- One poll that is not acknowledged (R149), with the address bit 8 of a memory address (log entry 31). -/
def unansweredPoll (address : Nat) : List BusAction :=
  [.startCondition, .send (deviceSelect address false), .stopCondition]

/-- What the port drives on MSCL and MSDA by the transfer in progress (R149, R153, R159, R160): bus recovery at the start of
every load and every save, the image read, the write in progress, or one poll after another until one is acknowledged. R149 gives
a poll no memory address: that its device select byte carries the address bit 8 of the write just completed is the model's choice
(log entry 31). -/
def MemoryPort.driving (p : MemoryPort) : List BusAction :=
  match p.bus with
  | .quiet => []
  | .reading => busRecovery ++ imageRead
  | .writing => (if p.writesMade = 0 then busRecovery else []) ++ saveTransfer p.snapshot (p.writesMade + 1)
  | .polling => unansweredPoll (saveWrite p.snapshot p.writesMade).1

/-- What the part drives on MSCL and MSDA: nothing while RESET# is held low (R148). -/
def State.memoryBus (s : State) : List BusAction := if s.resetLow then [] else s.port.driving

/-- MSCL is high and MSDA released: no transfer is in progress, or RESET# is held low (R148). -/
def State.memoryBusAtRest (s : State) : Bool := s.memoryBus.isEmpty

/-! ### The external memory (log entry 14) -/

/-- The byte that completed writes have left at an address, none where the part has written nothing. -/
def memoryRead : List Host.Cell → Nat → Option Byte
  | [], _ => none
  | (b, v) :: rest, a => if a = b then some v else memoryRead rest a

/-- One byte written, in the canonical form: addresses strictly rising. -/
def memoryWrite : List Host.Cell → Nat → Byte → List Host.Cell
  | [], a, v => [(a, v)]
  | (b, w) :: rest, a, v =>
    if a < b then (a, v) :: (b, w) :: rest
    else if a = b then (a, v) :: rest
    else (b, w) :: memoryWrite rest a v

/-- Bytes written in order from an address. -/
def memoryWriteAll : List Host.Cell → Nat → List Byte → List Host.Cell
  | m, _, [] => m
  | m, a, v :: vs => memoryWriteAll (memoryWrite m a v) (a + 1) vs

/-- The bytes of an image read: what the memory holds where the part has written it, and elsewhere what it held before
(R149, R162). -/
def readImage (m : List Host.Cell) (before : List Byte) : List Byte :=
  (List.range Config.imageSize).map fun a => (memoryRead m a).getD (before.getD a 0)

/-- The canonical form: addresses strictly rising. -/
def memoryWf : List Host.Cell → Bool
  | [] => true
  | [_] => true
  | (a, _) :: (b, w) :: rest => decide (a < b) && memoryWf ((b, w) :: rest)

end Sys2Proof.Machine
end

