-- ==== Sys2Proof/Machine/MemoryCommands.lean ====
section
/-! DEFINITION. The Memory Port: SAVE, RELOAD, and the ends of its transfers (R148 to R163). -/

namespace Sys2Proof.Machine

/-! ### Loading -/

/-- A load begins: LOADING, with bus recovery and the image read under way (R153). -/
def MemoryPort.beginLoad (p : MemoryPort) : MemoryPort := { p with state := .loading, bus := .reading }

/-- RELOAD (R158). -/
def cmdReload (s : State) : State :=
  match s.port.state with
  | .loading => s.leave .loading
  | .saving => s.leave .memoryBusy
  | .idle =>
    if allLines.any fun n => (s.line n).state != .closed then s.leave .wrongState
    else (s.modPort MemoryPort.beginLoad).leave .started

/-- One line takes the settings, hold settings and quotas of an image; an INBAND line starts with its received-pause flag
clear (R38, R56, R155 steps 1 to 3). -/
def installLine (g : LineImage) (l : Line) : Line :=
  { l with settings := g.settings, hold := g.hold, receivedPause := false
           rq := { l.rq with reserve := g.rqReserve, limit := g.rqLimit }
           tq := { l.tq with reserve := g.tqReserve, limit := g.tqLimit } }

/-- What the factory settings are as the record of an image (R156). -/
def factoryLineImage : LineImage :=
  { settings := factorySettings, hold := factoryHold, rqReserve := 2, rqLimit := 16, tqReserve := 2, tqLimit := 16 }

/-- The record of an image for a line or a slot; an image has one for each. -/
def GoodImage.line (g : GoodImage) (n : LineNo) : LineImage := g.lines.getD n.val factoryLineImage
def GoodImage.record (g : GoodImage) (i : SlotNo) : StandingRecord := g.records.getD i.val .empty

/-- The Memory Port at rest after a load (R155 step 6, R156). -/
def MemoryPort.rest (p : MemoryPort) : MemoryPort := { p with state := .idle, bus := .quiet }

/-- Steps 1 to 5 of the installation: settings, quotas, drain limit, and standing records, each ARMED one evaluated
(R155). -/
def State.installSettings (s : State) (g : GoodImage) : State :=
  let t := forLines (fun n u => u.modLine n (installLine (g.line n))) s
  let u : State := { t with drainLimit := g.drainLimit }
  let v := allSlots.foldl (fun w i => w.setRecord i (g.record i)) u
  allSlots.foldl (fun w i => w.evaluateSlot i) v

/-- Step 8: a line whose installed open-at-start is on goes from CLOSED to HOST (R155). -/
def State.openAtStart (n : LineNo) (s : State) : State :=
  if (s.line n).settings.openAtStart = true ∧ (s.line n).state = .closed then s.openLine n else s

/-- The installation of a good image in one step (R155). -/
def State.install (s : State) (g : GoodImage) : State :=
  forLines (fun n u => u.openAtStart n)
    (((s.installSettings g).modPort MemoryPort.rest).post .loadDone noLine noLine (loadInfo .ok))

/-- The failure step of a load: factory settings, drain limit 50, records EMPTY, port IDLE, LOAD_DONE (R156). -/
def State.loadFailed (s : State) (outcome : LoadOutcome) (index : Byte) : State :=
  let t := forLines (fun n u => u.modLine n (installLine factoryLineImage)) s
  let u : State := { t with drainLimit := Config.factoryDrainLimit, standing := Vector.replicate 4 .empty }
  (u.modPort MemoryPort.rest).post .loadDone noLine index (loadInfo outcome)

/-- The image read ends, and the load is judged into one outcome (R154). The read brings what the memory then holds (R162).
Outside LOADING no read is in progress. -/
def imageReadEnd (how : ReadEnd) (s : State) : State :=
  if s.isLoading then
    match how with
    | .notAcknowledged _ => s.loadFailed .noMemory noLine
    | .finished before =>
      let img := readImage s.memory before
      let t := s.modPort fun p => { p with loadBuffer := img }
      match judgeImage img with
      | .error (outcome, index) => t.loadFailed outcome index
      | .ok g => t.install g
  else s

/-! ### Saving -/

/-- SAVE (R159): the snapshot is taken at the write, and bus recovery and write 1 begin. -/
def cmdSave (s : State) : State :=
  match s.port.state with
  | .loading => s.leave .loading
  | .saving => s.leave .memoryBusy
  | .idle =>
    (s.modPort fun p =>
      { p with state := .saving, bus := .writing, snapshot := saveImage s, writesMade := 0, pollTimer := none }).leave
        .started

/-- The write in progress is complete: the port sends stop, the memory carries the write out, the poll timer starts and
polling begins (R149, R160). -/
def writeComplete (s : State) : State :=
  if s.port.state = .saving ∧ s.port.bus = .writing then
    let w := saveWrite s.port.snapshot (s.port.writesMade + 1)
    State.modPort { s with memory := memoryWriteAll s.memory w.1 w.2 } fun p =>
      { p with writesMade := p.writesMade + 1, bus := .polling, pollTimer := startTimer Config.writePollTicks }
  else s

/-- A save ends: the port returns to IDLE, the snapshot is discarded, SAVE_DONE is posted (R161). That the count of writes made
returns to 0 is the model's choice (log entry 16). -/
def State.endSave (s : State) (outcome : SaveOutcome) : State :=
  (s.modPort fun p =>
    { p with state := .idle, bus := .quiet, snapshot := [], writesMade := 0, pollTimer := none }).post .saveDone noLine
      noLine (saveInfo outcome)

/-- A poll is acknowledged: the timer stops, and the save goes on with the next write or ends OK after write 36 (R160,
R161). -/
def pollAcknowledge (s : State) : State :=
  if s.port.state = .saving ∧ s.port.bus = .polling then
    if Config.saveWrites ≤ s.port.writesMade then s.endSave .ok
    else s.modPort fun p => { p with bus := .writing, pollTimer := none }
  else s

/-- A byte of the write in progress is not acknowledged: NO_MEMORY at the device select byte of write 1, WRITE_FAILED at any
later byte (R161). The write has no byte beyond its last. -/
def byteRefused (byte : Nat) (s : State) : State :=
  if s.port.state = .saving ∧ s.port.bus = .writing
      ∧ byte < (sentBytes s.port.driving).length then
    s.endSave (if s.port.writesMade = 0 ∧ byte = 0 then .noMemory else .writeFailed)
  else s

/-- The memory write poll timer expires without an acknowledged poll (R161). -/
def pollExpiry (s : State) : State :=
  if s.port.state = .saving ∧ s.port.bus = .polling ∧ timerDue s.port.pollTimer = true then s.endSave .writeFailed else s

def execSave (s : State) : Host.Outcome State Fault Refusal := whileRunning s cmdSave
def execReload (s : State) : Host.Outcome State Fault Refusal := whileRunning s cmdReload
def execImageReadDone (how : ReadEnd) (s : State) : Host.Outcome State Fault Refusal := whileRunning s (imageReadEnd how)
def execPollAcknowledged (s : State) : Host.Outcome State Fault Refusal := whileRunning s pollAcknowledge
def execSaveByteNotAcknowledged (byte : Nat) (s : State) : Host.Outcome State Fault Refusal :=
  whileRunning s (byteRefused byte)
def execWritePollExpiry (s : State) : Host.Outcome State Fault Refusal := whileRunning s pollExpiry
def execSaveWriteComplete (s : State) : Host.Outcome State Fault Refusal := whileRunning s writeComplete

end Sys2Proof.Machine
end

