-- ==== Sys2Proof/Machine/Reset.lean ====
section
/-! DEFINITION. RESET# and RESET_PART (R18, R39, R56, R76, R77, R94, R117, R132, R147, R148, R153, R162, R180, R181). -/

namespace Sys2Proof.Machine

/-- Every block takes its reset values and a load begins, with a result left in RESULT (R180). What is not the part's stays:
the levels on the HLDI pins, the external memory, and the commands that wait. -/
def State.resetAll (s : State) (r : Result) : State :=
  forLines (fun n t => t.modLine n fun _ => Line.resetValue (s.line n).hldi)
    { State.reset with memory := s.memory, pending := s.pending, host := { HostPort.resetValue with result := r } }

/-- RESET_PIN: the release of RESET# (R180). -/
def execResetPin (s : State) : Host.Outcome State Fault Refusal := .next (s.resetAll .none)

/-- RESET_PART: taken in every state of the Memory Port and never refused (R167, R180). -/
def cmdResetPart (s : State) : State := s.resetAll .done

def execResetPart (s : State) : Host.Outcome State Fault Refusal := whileRunning s cmdResetPart

/-- RESET# goes low: items on TXD are cut, the memory bus comes to rest and D0 to D7 are undriven; CALL and HLDO are
deasserted while it is low (R18, R148, R165). The reset values are taken at its release (R180). -/
def State.assertReset (s : State) : State :=
  State.modHost (State.modPort
    { forLines (fun n t => t.modLine n fun l => { l with tx := .idle, breakTimer := none }) s with resetLow := true }
    fun p => { p with bus := .quiet }) fun h => { h with readData := none }

def execResetPinAsserted (s : State) : Host.Outcome State Fault Refusal := .next s.assertReset

end Sys2Proof.Machine
end

