-- ==== Sys2Proof/Machine/StandingCommands.lean ====
section
/-! DEFINITION. The commands of the Standing List (R135 to R138). -/

namespace Sys2Proof.Machine

/-- The checks LOADING and BAD_LINE that begin the commands naming a slot in P0. -/
def State.checkSlot (s : State) (f : SlotNo → State) : State :=
  if s.isLoading then s.leave .loading
  else match slotOfByte (s.param 0) with
    | none => s.leave .badLine
    | some i => f i

/-- STANDING_PUT (R135). -/
def cmdStandingPut (s : State) : State :=
  s.checkSlot fun i =>
    match lineOfByte (s.param 1), lineOfByte (s.param 2) with
    | some a, some b =>
      if a = b then s.leave .badLine
      else if standingOk s = false then s.leave .badValue
      else match s.record i with
        | .armed _ | .active _ => s.leave .wrongState
        | .empty | .idle _ => (s.setRecord i (.idle (contentsOf s a b))).leave .done
    | _, _ => s.leave .badLine

/-- STANDING_ARM (R136): the record is armed and evaluated at once. -/
def cmdStandingArm (s : State) : State :=
  s.checkSlot fun i =>
    match s.record i with
    | .empty | .active _ => s.leave .wrongState
    | .armed _ => s.leave .done
    | .idle c =>
      if s.reservedElsewhere i c.lineA || s.reservedElsewhere i c.lineB then s.leave .reservedLine
      else ((s.setRecord i (.armed c)).evaluateSlot i).leave .done

/-- STANDING_DISARM (R137). -/
def cmdStandingDisarm (s : State) : State :=
  s.checkSlot fun i =>
    match s.record i with
    | .empty | .active _ => s.leave .wrongState
    | .idle _ => s.leave .done
    | .armed c => (s.setRecord i (.idle c)).leave .done

/-- STANDING_DROP (R137). -/
def cmdStandingDrop (s : State) : State :=
  s.checkSlot fun i =>
    match s.record i with
    | .empty => s.leave .done
    | .idle _ | .armed _ => (s.setRecord i .empty).leave .done
    | .active _ => s.leave .wrongState

/-- The fields of QUERY_STANDING's report behind the state code (R138). -/
def contentsReport (code : Byte) (c : Contents) : Vector Byte 8 :=
  #v[code, lineByte c.lineA, lineByte c.lineB, c.escChar, c.escCount, c.guardTime, contentsFlags c, c.idleLimit]

/-- The report of QUERY_STANDING in P0 to P7 (R138). -/
def recordReport : StandingRecord → Vector Byte 8
  | .empty => #v[0x00, noLine, noLine, 0, 0, 0, 0, 0]
  | .idle c => contentsReport 0x01 c
  | .armed c => contentsReport 0x02 c
  | .active c => contentsReport 0x03 c

/-- QUERY_STANDING (R138). -/
def cmdQueryStanding (s : State) : State :=
  s.checkSlot fun i => (s.report (recordReport (s.record i))).leave .done

def execStandingPut (s : State) : Host.Outcome State Fault Refusal := whileRunning s cmdStandingPut
def execStandingArm (s : State) : Host.Outcome State Fault Refusal := whileRunning s cmdStandingArm
def execStandingDisarm (s : State) : Host.Outcome State Fault Refusal := whileRunning s cmdStandingDisarm
def execStandingDrop (s : State) : Host.Outcome State Fault Refusal := whileRunning s cmdStandingDrop
def execQueryStanding (s : State) : Host.Outcome State Fault Refusal := whileRunning s cmdQueryStanding

end Sys2Proof.Machine
end

