-- ==== Sys2Proof/Machine/HostPort.lean ====
section
/-! DEFINITION. The Host Port's registers: what a read of each offset returns (R164), the data ports (R169, R170), PART_STATUS
(R173), EVT_POP (R179), and writes to registers and to COMMAND (R165 to R168, R176). -/

namespace Sys2Proof.Machine

/-! ### Reads (R164) -/

/-- The value a read of RX_CHAR returns: the oldest entry's, 00h for a BREAK or an empty queue (R169). -/
def charValue : Option Entry → Byte
  | none => 0x00
  | some e => match e.kind with
    | .data | .error => e.value
    | .brk => 0x00

/-- The head record's fields as EVT_KIND to EVT_SEQ read them, 00h when the queue is empty (R179). -/
def headField (s : State) (f : Event → Byte) : Byte :=
  match s.host.events with
  | [] => 0x00
  | e :: _ => f e

/-- The RQ and TQ of the selected line (R169, R170). -/
def State.selectedRq (s : State) : QueueId := .rq s.host.lineSelect
def State.selectedTq (s : State) : QueueId := .tq s.host.lineSelect

/-- The contents of the register at an offset (R164). -/
def State.registerByte (s : State) (offset : BitVec 5) : Byte :=
  match offset.toNat with
  | 0x00 => Config.partId
  | 0x01 => Config.partRevision
  | 0x02 => s.partStatusByte
  | 0x03 => s.host.irqEnable
  | 0x04 => resultCode s.host.result
  | 0x05 => s.param 0
  | 0x06 => s.param 1
  | 0x07 => s.param 2
  | 0x08 => s.param 3
  | 0x09 => s.param 4
  | 0x0A => s.param 5
  | 0x0B => s.param 6
  | 0x0C => s.param 7
  | 0x0D => lineByte s.host.lineSelect
  | 0x0E => rxKindCode (s.peek s.selectedRq)
  | 0x0F => charValue (s.peek s.selectedRq)
  | 0x11 => saturated (s.appendRoom s.selectedTq)
  | 0x12 => saturated (s.queue s.selectedRq).occupancy
  | 0x13 => s.attnRx
  | 0x14 => s.attnTx
  | 0x15 => s.host.rxMask
  | 0x16 => s.host.txMask
  | 0x17 => headField s fun e => kindCode e.kind
  | 0x18 => headField s fun e => e.line
  | 0x19 => headField s fun e => e.peer
  | 0x1A => headField s fun e => e.info
  | 0x1B => headField s fun e => e.seq
  | 0x1C => BitVec.ofNat 8 s.host.events.length
  | 0x1D => BitVec.ofNat 8 s.freeCount
  | 0x1E => s.readyLevels
  | 0x1F => s.callLevels
  | _ => 0x00

/-- What a read of an offset drives on D0 to D7: the register's contents, and nothing while RESET# is low (R164, R165). Only
RX_CHAR and PART_STATUS have a side effect, which is their command's. -/
def readRegister (s : State) (offset : BitVec 5) : Option Byte :=
  if s.resetLow then none else some (s.registerByte offset)

/-- A read that has a side effect: while RESET# is low it is not taken, and D0 to D7 stay undriven (R165). -/
def whileReading (s : State) (f : State → State) : Host.Outcome State Fault Refusal :=
  .next (if s.resetLow then s.modHost fun h => { h with readData := none } else f s)

/-- A read of RX_CHAR (R169). -/
def readRxChar (s : State) : State :=
  match s.removeOldest s.selectedRq with
  | none => s.modHost fun h => { h with readData := some 0x00, rxEmpty := true }
  | some (e, t) =>
    (t.modHost fun h => { h with readData := some (charValue (some e)) }).tellHold s.selectedRq

/-- A read of PART_STATUS (R173). -/
def readPartStatus (s : State) : State :=
  s.modHost fun h =>
    { h with readData := some s.partStatusByte, txRefused := false, rxEmpty := false, popEmpty := false,
             cmdRefused := false }

/-! ### Writes -/

/-- A refused write to TX_CHAR (R170). -/
def State.refuseTx (s : State) : State := s.modHost fun h => { h with txRefused := true }

/-- A write to TX_CHAR (R170). -/
def writeTxChar (value : Byte) (s : State) : State :=
  if s.isLoading then s.refuseTx
  else if (s.line s.host.lineSelect).state ≠ .host then s.refuseTx
  else
    match s.appendTold s.selectedTq { kind := .data, value := value } with
    | none => s.refuseTx
    | some t => t

/-- A write to EVT_POP (R179). -/
def popEvent (s : State) : State :=
  s.modHost fun h =>
    match h.events with
    | [] => { h with popEmpty := true }
    | _ :: rest => { h with events := rest }

/-- The command that a host command is (R167). -/
def runCommand : HostCommand → State → State
  | .openLine => cmdOpenLine
  | .closeLine => cmdCloseLine
  | .queryLine => cmdQueryLine
  | .setFormat => cmdSetFormat
  | .setTiming => cmdSetTiming
  | .setFlow => cmdSetFlow
  | .setQuota => cmdSetQuota
  | .sendBreak => cmdSendBreak
  | .flush => cmdFlush
  | .connect => cmdConnect
  | .release => cmdRelease
  | .setPart => cmdSetPart
  | .standingPut => cmdStandingPut
  | .standingArm => cmdStandingArm
  | .standingDisarm => cmdStandingDisarm
  | .standingDrop => cmdStandingDrop
  | .queryStanding => cmdQueryStanding
  | .save => cmdSave
  | .reload => cmdReload
  | .resetPart => cmdResetPart

/-- A write to COMMAND: the command of the code, or UNKNOWN for an undefined code (R166, R167). -/
def writeCommand (code : Byte) (s : State) : State :=
  match commandOfCode code with
  | some c => runCommand c s
  | none => s.leave .unknown

/-- A write to P0 to P7 (R168). -/
def State.setParam (s : State) (i : Fin 8) (v : Byte) : State :=
  s.modHost fun h => { h with params := h.params.set i v }

/-- A write to LINE_SELECT: 00h to 07h selects, a larger value is ignored (R169). -/
def State.selectLine (s : State) (v : Byte) : State :=
  match lineOfByte v with
  | some n => s.modHost fun h => { h with lineSelect := n }
  | none => s

/-- A write access to an offset (R164, R165). Offsets that have no write function ignore it. -/
def writeRegister (offset : BitVec 5) (v : Byte) (s : State) : State :=
  match offset.toNat with
  | 0x03 => s.modHost fun h => { h with irqEnable := v &&& 0x07 }
  | 0x04 => writeCommand v s
  | 0x05 => s.setParam 0 v
  | 0x06 => s.setParam 1 v
  | 0x07 => s.setParam 2 v
  | 0x08 => s.setParam 3 v
  | 0x09 => s.setParam 4 v
  | 0x0A => s.setParam 5 v
  | 0x0B => s.setParam 6 v
  | 0x0C => s.setParam 7 v
  | 0x0D => s.selectLine v
  | 0x10 => writeTxChar v s
  | 0x15 => s.modHost fun h => { h with rxMask := v }
  | 0x16 => s.modHost fun h => { h with txMask := v }
  | 0x1C => popEvent s
  | _ => s

def execUnknownCommand (code : Byte) (s : State) : Host.Outcome State Fault Refusal := whileRunning s (writeCommand code)
def execRxChar (s : State) : Host.Outcome State Fault Refusal := whileReading s readRxChar
def execTxChar (value : Byte) (s : State) : Host.Outcome State Fault Refusal := whileRunning s (writeTxChar value)
def execPartStatus (s : State) : Host.Outcome State Fault Refusal := whileReading s readPartStatus
def execEvtPop (_value : Byte) (s : State) : Host.Outcome State Fault Refusal := whileRunning s popEvent
def execRegisterWrite (offset : BitVec 5) (value : Byte) (s : State) : Host.Outcome State Fault Refusal :=
  whileRunning s (writeRegister offset value)

end Sys2Proof.Machine
end

