-- ==== Sys2Proof/Machine/LinePort.lean ====
section
/-! DEFINITION. The Line Ports' events and the tick (chapter 1): START_BIT, FRAME_COMPLETE, MARK_WAIT_DONE, BREAK_END,
HLDI_CHANGE, READY_SAMPLE, READY_RECOGNITION, ITEM_FINISHED, BREAK_TIMER_EXPIRY. An event that the port's state does not
allow does not arise, and nothing changes (log entry 4). -/

namespace Sys2Proof.Machine

/-! ### Receiver -/

/-- The eighth sample after a start edge: spacing enters FRAME with the rate and format that were in force at the edge, as many
SET_FORMATs ago as the sample says, and marking was a false start, after which the receiver looks for another edge (R5, R12;
log entry 6). An edge that came before the receiver was IDLE does not arise (log entry 4). -/
def startBitSampled (n : LineNo) (sample : StartSample) (s : State) : State :=
  match (s.line n).rx with
  | .idle earlier =>
    match ((s.line n).settings.format :: earlier)[sample.changes]? with
    | none => s
    | some fmt => s.modLine n fun l => { l with rx := if sample.level then .idle [] else .frame fmt }
  | .disabled => s
  | .waitMark _ => s
  | .frame _ => s
  | .breakWait _ => s

/-- The first stop bit is sampled: the frame is classified and its entry delivered (R6, R8). -/
def frameCompleted (n : LineNo) (data : Byte) (parity stop : Bool) (s : State) : State :=
  match (s.line n).rx with
  | .frame fmt =>
    let e := classify fmt data parity stop
    (s.modLine n fun l => { l with rx := rxAfter fmt e }).deliver n e
  | .disabled => s
  | .waitMark _ => s
  | .idle _ => s
  | .breakWait _ => s

/-- Sixteen consecutive marking samples in WAIT_MARK: IDLE (R5). -/
def markWaitEnded (n : LineNo) (s : State) : State :=
  match (s.line n).rx with
  | .waitMark _ => s.modLine n fun l => { l with rx := .idle [] }
  | .disabled => s
  | .idle _ => s
  | .frame _ => s
  | .breakWait _ => s

/-- Sixteen consecutive marking samples in BREAK: IDLE, with no report (R7). -/
def breakEnded (n : LineNo) (s : State) : State :=
  match (s.line n).rx with
  | .breakWait _ => s.modLine n fun l => { l with rx := .idle [] }
  | .disabled => s
  | .waitMark _ => s
  | .idle _ => s
  | .frame _ => s

/-! ### Transmitter -/

/-- The transmitter finishes its item: it begins the next at once, or becomes idle and tells the Connection Table, which
checks a drain (R9, R10, R110). A break's spacing is not its end (R11). -/
def itemDone (n : LineNo) (s : State) : State :=
  match (s.line n).tx with
  | .char _ _ | .flow _ _ | .breakTail _ =>
    let t := (s.modLine n fun l => { l with tx := .idle }).kickTx n
    if (t.line n).tx == .idle then t.drainCheck n else t
  | .idle => s
  | .breakSpacing _ => s

/-- The break timer expires: marking for one character time of the format in force when the break began (R11). -/
def breakExpiry (n : LineNo) (s : State) : State :=
  match (s.line n).tx with
  | .breakSpacing fmt =>
    if timerDue (s.line n).breakTimer then s.modLine n fun l => { l with tx := .breakTail fmt, breakTimer := none } else s
  | .idle => s
  | .char _ _ => s
  | .flow _ _ => s
  | .breakTail _ => s

/-! ### HLDI -/

/-- HLDIn changes level; on a LINES line output-held follows, and when it becomes false an idle transmitter begins (R9,
R15, R50). -/
def hldiChanged (n : LineNo) (level : Bool) (s : State) : State :=
  (s.modLine n fun l => { l with hldi := level }).kickTx n

/-! ### The tick and ready recognition -/

/-- Every timer of a line counts the tick (R1, R2). -/
def Line.tick (l : Line) : Line :=
  { l with answerTimer := tickTimer l.answerTimer, idleTimer := tickTimer l.idleTimer,
           drainTimer := tickTimer l.drainTimer, breakTimer := tickTimer l.breakTimer,
           monitor := { l.monitor with silence := tickTimer l.monitor.silence } }

/-- One sample of RDYn (R13): a level equal to the recognised one zeroes the count, another increases it, and from the ready
grace plus one the recognition is due. At the first tick after a reset the level is taken without grace, and the count is
zero (R18). -/
def Line.sampleReady (first raw : Bool) (l : Line) : Line :=
  if raw = l.ready then { l with rdySample := raw, graceCount := 0, readyDue := .none }
  else if first then { l with rdySample := raw, graceCount := 0, readyDue := .first }
  else { l with rdySample := raw, graceCount := l.graceCount + 1,
                readyDue := if l.settings.readyGrace.toNat + 1 ≤ l.graceCount + 1 then .counted else .none }

/-- A tick: every timer counts, the write poll's too, and every line port samples RDYn (R1, R2, R13). -/
def tickAll (levels : Byte) (s : State) : State :=
  let t := forLines (fun n u => u.modLine n fun l => l.tick.sampleReady s.firstTick (levels.getLsbD n.val)) s
  State.modPort { t with firstTick := false } fun p => { p with pollTimer := tickTimer p.pollTimer }

/-- What the Connection Table makes of a recognised change, by the line's state (R14, R82, R87, R101): READY_CHANGE on a HOST
line unless the change is the first after a reset (R18), the loss of a caller, the answer of a called line, the loss of a
bridged line; nothing in CLOSED and DRAINING. -/
def State.readyChanged (s : State) (n : LineNo) (first level : Bool) : State :=
  match (s.line n).state, level with
  | .host, _ => if first then s else s.post .readyChange (lineByte n) noLine (onOffCode level)
  | .calling, false => s.endCall n .callerLost
  | .offered, true =>
    match (s.line n).conn with
    | some c => s.answer c.peer n
    | none => s
  | .bridged, false => s.release n .readyLost
  | .calling, true => s
  | .offered, false => s
  | .bridged, true => s
  | .closed, _ => s
  | .draining, _ => s

/-- The recognition that the last sample made due: the recognised level takes the raw level and the count is zero; the
Connection Table and then the Standing List take the change (R13, R14, R140). -/
def recognise (n : LineNo) (s : State) : State :=
  if (s.line n).readyDue = .none then s
  else
    let level := (s.line n).rdySample
    let t := (s.modLine n fun l => { l with ready := level, graceCount := 0, readyDue := .none }).readyChanged n
      ((s.line n).readyDue == .first) level
    if level then t.evaluateLine n else t

def execFrameComplete (n : LineNo) (data : Byte) (parity stop : Bool) (s : State) : Host.Outcome State Fault Refusal :=
  whileRunning s (frameCompleted n data parity stop)
def execMarkWaitDone (n : LineNo) (s : State) : Host.Outcome State Fault Refusal := whileRunning s (markWaitEnded n)
def execBreakEnd (n : LineNo) (s : State) : Host.Outcome State Fault Refusal := whileRunning s (breakEnded n)
def execStartBit (n : LineNo) (sample : StartSample) (s : State) : Host.Outcome State Fault Refusal :=
  whileRunning s (startBitSampled n sample)
def execItemFinished (n : LineNo) (s : State) : Host.Outcome State Fault Refusal := whileRunning s (itemDone n)
def execBreakTimerExpiry (n : LineNo) (s : State) : Host.Outcome State Fault Refusal := whileRunning s (breakExpiry n)
def execReadySample (levels : Byte) (s : State) : Host.Outcome State Fault Refusal := whileRunning s (tickAll levels)
def execReadyRecognition (n : LineNo) (s : State) : Host.Outcome State Fault Refusal := whileRunning s (recognise n)

/-- HLDI_CHANGE: the pin's level changes while RESET# is low too; only the part takes no notice (log entry 9). -/
def execHldiChange (n : LineNo) (level : Bool) (s : State) : Host.Outcome State Fault Refusal :=
  .next (if s.resetLow then s.modLine n fun l => { l with hldi := level } else hldiChanged n level s)

end Sys2Proof.Machine
end

