-- ==== Sys2Proof/Machine/Dispatch.lean ====
section
/-! DEFINITION. exec: one arm per command. -/

namespace Sys2Proof.Machine

def exec (i : Instr) (s : State) : Host.Outcome State Fault Refusal :=
  match i with
  | .resetPin => Sys2Proof.Machine.execResetPin s
  | .resetPart => Sys2Proof.Machine.execResetPart s
  | .openLine => Sys2Proof.Machine.execOpenLine s
  | .closeLine => Sys2Proof.Machine.execCloseLine s
  | .queryLine => Sys2Proof.Machine.execQueryLine s
  | .setFormat => Sys2Proof.Machine.execSetFormat s
  | .setTiming => Sys2Proof.Machine.execSetTiming s
  | .setFlow => Sys2Proof.Machine.execSetFlow s
  | .setQuota => Sys2Proof.Machine.execSetQuota s
  | .sendBreak => Sys2Proof.Machine.execSendBreak s
  | .flush => Sys2Proof.Machine.execFlush s
  | .connect => Sys2Proof.Machine.execConnect s
  | .release => Sys2Proof.Machine.execRelease s
  | .setPart => Sys2Proof.Machine.execSetPart s
  | .standingPut => Sys2Proof.Machine.execStandingPut s
  | .standingArm => Sys2Proof.Machine.execStandingArm s
  | .standingDisarm => Sys2Proof.Machine.execStandingDisarm s
  | .standingDrop => Sys2Proof.Machine.execStandingDrop s
  | .queryStanding => Sys2Proof.Machine.execQueryStanding s
  | .save => Sys2Proof.Machine.execSave s
  | .reload => Sys2Proof.Machine.execReload s
  | .unknownCommand code => Sys2Proof.Machine.execUnknownCommand code s
  | .rxChar => Sys2Proof.Machine.execRxChar s
  | .txChar value => Sys2Proof.Machine.execTxChar value s
  | .partStatus => Sys2Proof.Machine.execPartStatus s
  | .evtPop value => Sys2Proof.Machine.execEvtPop value s
  | .registerWrite offset value => Sys2Proof.Machine.execRegisterWrite offset value s
  | .frameComplete line data parity stop => Sys2Proof.Machine.execFrameComplete line data parity stop s
  | .markWaitDone line => Sys2Proof.Machine.execMarkWaitDone line s
  | .breakEnd line => Sys2Proof.Machine.execBreakEnd line s
  | .hldiChange line level => Sys2Proof.Machine.execHldiChange line level s
  | .readyRecognition line => Sys2Proof.Machine.execReadyRecognition line s
  | .itemFinished line => Sys2Proof.Machine.execItemFinished line s
  | .breakTimerExpiry line => Sys2Proof.Machine.execBreakTimerExpiry line s
  | .answerTimerExpiry line => Sys2Proof.Machine.execAnswerTimerExpiry line s
  | .idleTimerExpiry line => Sys2Proof.Machine.execIdleTimerExpiry line s
  | .drainTimerExpiry line => Sys2Proof.Machine.execDrainTimerExpiry line s
  | .silenceTimerExpiry line => Sys2Proof.Machine.execSilenceTimerExpiry line s
  | .imageReadDone how => Sys2Proof.Machine.execImageReadDone how s
  | .pollAcknowledged => Sys2Proof.Machine.execPollAcknowledged s
  | .saveByteNotAcknowledged byte => Sys2Proof.Machine.execSaveByteNotAcknowledged byte s
  | .writePollExpiry => Sys2Proof.Machine.execWritePollExpiry s
  | .readySample levels => Sys2Proof.Machine.execReadySample levels s
  | .startBit line sample => Sys2Proof.Machine.execStartBit line sample s
  | .resetPinAsserted => Sys2Proof.Machine.execResetPinAsserted s
  | .saveWriteComplete => Sys2Proof.Machine.execSaveWriteComplete s

end Sys2Proof.Machine
end

