-- ==== Sys2Proof/Safety.lean ====
section
/-! DEFINITION. What the spec calls the laws of the part, and the other facts about a state that hold at every moment of a run:
the terms in which claims about all states are made. -/

namespace Sys2Proof.Machine

/-! ### The Queue Store -/

/-- The pool law (R20): each cell is on the free list or in the chain of exactly one queue. -/
def State.PoolLaw (s : State) : Prop :=
  (s.freeList ++ allQueues.flatMap fun q => (s.queue q).chain).Perm (List.range Config.cellCount)

/-- The shape of one queue (R21): it holds cells exactly while it holds entries, the head position lies in a cell, and every
cell other than the tail cell is full behind the head position. A queue without a cell has head position 0 (log entry 30). -/
def Queue.Shape (q : Queue) : Prop :=
  q.headPos < Config.cellSize ∧ (q.chain = [] → q.headPos = 0 ∧ q.entries = []) ∧
    (q.chain ≠ [] → q.entries ≠ [] ∧ Config.cellSize * (q.held - 1) < q.headPos + q.occupancy ∧
      q.headPos + q.occupancy ≤ Config.cellSize * q.held)

/-- Every queue has its shape (R21). -/
def State.QueueLaw (s : State) : Prop := ∀ n, (s.line n).rq.Shape ∧ (s.line n).tq.Shape

/-- Quotas in range, reserves within the pool, and the reserve guarantee (R22). -/
def State.QuotaLaw (s : State) : Prop :=
  (∀ n, quotaOk (s.line n).rq.reserve (s.line n).rq.limit = true ∧ quotaOk (s.line n).tq.reserve (s.line n).tq.limit = true)
    ∧ s.reserveTotal ≤ Config.cellCount ∧ s.unmetTotal ≤ s.freeCount

/-! ### The Connection Table -/

/-- The states that a line and its peer have together (R60), by the line's role. -/
def pairedStates (l p : Line) (role : Role) : Bool :=
  (l.state == .bridged && p.state == .bridged) || (role == .caller && l.state == .calling && p.state == .offered)
    || (role == .called && l.state == .offered && p.state == .calling)

/-- The record of a line and that of its peer name each other and agree (R58, R60). -/
def pairedParts (n : LineNo) (c d : Connection) : Bool :=
  d.peer == n && d.role != c.role && d.origin == c.origin && d.escChar == c.escChar && d.escCount == c.escCount
    && d.guardTime == c.guardTime && d.breakAction == c.breakAction && d.idleLimit == c.idleLimit

/-- The peer law (R58, R60): a line has its optional parts exactly in CALLING, OFFERED and BRIDGED, its peer is another line
that names it back, and only an ordered connection is ever in setup. -/
def State.PeerLaw (s : State) : Prop :=
  ∀ n, match (s.line n).conn with
    | none => (s.line n).state = .closed ∨ (s.line n).state = .host ∨ (s.line n).state = .draining
    | some c => c.peer ≠ n ∧ pairedStates (s.line n) (s.line c.peer) c.role = true ∧
        ((s.line n).state ≠ .bridged → c.origin = .ordered) ∧
        match (s.line c.peer).conn with
        | none => False
        | some d => pairedParts n c d = true

/-- The closed-line law (R5, R55, R62, R72): a CLOSED line's queues are empty, its hold working state and overrun-reported
flag are at their values after a close, and its receiver is DISABLED exactly then. -/
def State.ClosedLaw (s : State) : Prop :=
  ∀ n, ((s.line n).state = .closed → (s.line n).rq.entries = [] ∧ (s.line n).tq.entries = [] ∧
      (s.line n).inputHeld = false ∧ (s.line n).announced = .running ∧ (s.line n).receivedPause = false ∧
      (s.line n).overrun = false) ∧
    ((s.line n).rx = .disabled ↔ (s.line n).state = .closed)

/-- While the Memory Port is LOADING every line is CLOSED (R153, R158). -/
def State.LoadingLaw (s : State) : Prop := s.port.state = .loading → ∀ n, (s.line n).state = .closed

/-- The two lines of an ACTIVE record are BRIDGED with each other on its connection, line a as CALLER (R141). -/
def State.ServesRecord (s : State) (i : SlotNo) (c : Contents) : Prop :=
  (s.line c.lineA).conn = some (standingPart c i .caller) ∧ (s.line c.lineB).conn = some (standingPart c i .called)

/-- The standing law (R134, R136, R141): a record names two lines, no line is reserved by two records, an ACTIVE record's
lines serve it, and a connection of origin STANDING belongs to an ACTIVE record of its slot. -/
def State.StandingLaw (s : State) : Prop :=
  (∀ i, match s.record i with
    | .empty => True
    | .idle c => c.lineA ≠ c.lineB
    | .armed c => c.lineA ≠ c.lineB
    | .active c => c.lineA ≠ c.lineB ∧ s.ServesRecord i c) ∧
  (∀ i j n, reserves (s.record i) n = true → reserves (s.record j) n = true → i = j) ∧
  (∀ n i, (s.line n).conn.map (·.origin) = some (.standing i) →
    ∃ c, s.record i = .active c ∧ (n = c.lineA ∨ n = c.lineB))

/-! ### Timers and ready levels -/

/-- The transmitter is sending the spacing of a break. -/
def TxState.isSpacing : TxState → Bool
  | .breakSpacing _ => true
  | .idle => false
  | .char _ _ => false
  | .flow _ _ => false
  | .breakTail _ => false

/-- The timers run only in the states they belong to (R59, R11), and the discard tally only counts in DRAINING, up to 255
(R110): the answer timer in CALLING, the drain timer in DRAINING, the idle timer in BRIDGED in the caller's record, the
break timer exactly in a break's spacing. -/
def State.TimerLaw (s : State) : Prop :=
  ∀ n, ((s.line n).answerTimer.isSome = true → (s.line n).state = .calling) ∧
    ((s.line n).drainTimer.isSome = true → (s.line n).state = .draining) ∧
    ((s.line n).idleTimer.isSome = true → (s.line n).state = .bridged ∧ (s.line n).conn.map (·.role) = some .caller) ∧
    (s.line n).breakTimer.isSome = (s.line n).tx.isSpacing ∧
    (s.line n).tally ≤ 255 ∧ ((s.line n).tally ≠ 0 → (s.line n).state = .draining)

/-- Ready levels of calls and connections (R85, R101): present on a caller and on bridged lines, absent on an offered line. -/
def State.ReadyLaw (s : State) : Prop :=
  ∀ n, ((s.line n).state = .bridged → (s.line n).ready = true) ∧ ((s.line n).state = .calling → (s.line n).ready = true) ∧
    ((s.line n).state = .offered → (s.line n).ready = false)

/-! ### Escape monitors -/

/-- A monitor of a bridged line agrees with the connection (section 7.2, R119, R126): active exactly when there is a profile
and the flag is set; the list holds as many DATA entries of the escape character as the count says, and each state has its
count and its timer. -/
def MonitorOk (m : Monitor) (c : Connection) : Prop :=
  profileOk c.escCount c.guardTime = true ∧ (m.state ≠ .off ↔ c.escCount ≠ 0 ∧ c.monitorFlag = true) ∧
    m.count = m.holding.length ∧ (∀ e ∈ m.holding, e = { kind := .data, value := c.escChar }) ∧
    match m.state with
    | .off => m = .offValue
    | .settling => m.count = 0 ∧ c.guardTime ≠ 0 ∧ m.silence.isSome = true
    | .ready => m.count = 0 ∧ m.silence = none
    | .counting => 1 ≤ m.count ∧ m.count < c.escCount.toNat ∧ (m.silence.isSome = true ↔ c.guardTime ≠ 0)
    | .confirming => m.count = c.escCount.toNat ∧ c.guardTime ≠ 0 ∧ m.silence.isSome = true

/-- The holding-list law (R126, R133): a bridged line's monitor agrees with its connection, and every other line's is OFF with
an empty list and a count of 0. A call in setup carries a profile in range too. -/
def State.HoldingLaw (s : State) : Prop :=
  ∀ n, match (s.line n).conn with
    | none => (s.line n).monitor = .offValue
    | some c => profileOk c.escCount c.guardTime = true ∧
        if (s.line n).state = .bridged then MonitorOk (s.line n).monitor c else (s.line n).monitor = .offValue

/-! ### The Hold Logic and the transmitter -/

/-- Input-held of a line for an occupancy of its destination (R43): true from eight times the high mark, false up to eight times
the low mark, kept between them. -/
def Line.heldAt (l : Line) (occupancy : Nat) : Bool :=
  if 8 * l.hold.highMark.toNat ≤ occupancy then true
  else if occupancy ≤ 8 * l.hold.lowMark.toNat then false
  else l.inputHeld

/-- Input-held agrees with the marks (R43): true from the high threshold, false up to the low threshold of the destination. -/
def State.HeldLaw (s : State) : Prop :=
  ∀ n, (s.line n).heldAt (s.queue (s.destination n)).occupancy = (s.line n).inputHeld

/-- An idle transmitter has nothing that it may begin (R9): no pending code, and no entry unless it is output-held. -/
def State.TransmitLaw (s : State) : Prop :=
  s.resetLow = false → ∀ n, (s.line n).tx = .idle →
    (s.line n).codePending = false ∧ ((s.line n).outputHeld = true ∨ (s.line n).tq.entries = [])

/-- No DRAINING line has a complete drain (R110), and no ARMED record has its conditions (R140): both are acted on in the step
that brings them about. -/
def State.PromptLaw (s : State) : Prop :=
  s.resetLow = false → (∀ n, (s.line n).state = .draining → (s.line n).drained = false) ∧
    ∀ i, match s.record i with
      | .armed c => s.establishable c = false
      | .empty => True
      | .idle _ => True
      | .active _ => True

/-! ### The Host Port -/

/-- The event-queue law (R178): at most 32 records, OVERFLOW only as the newest, and a full queue ends with it. -/
def HostPort.EventLaw (h : HostPort) : Prop :=
  h.events.length ≤ 32 ∧ (∀ e ∈ h.events.dropLast, e.kind ≠ .overflow) ∧
    (h.events.length = 32 → newestIsOverflow h.events = true)

/-- The sequence numbers of the records in the queue are consecutive and end before the next number (R178). -/
def HostPort.SeqLaw (h : HostPort) : Prop :=
  ∀ i (hi : i < h.events.length),
    (h.events[i]'hi).seq + BitVec.ofNat 8 (h.events.length - i) = h.nextSeq

/-! ### Settings -/

/-- A line's settings are ones that the commands accept (R16, R17, R53). -/
def Line.SettingsOk (l : Line) : Prop :=
  timingOk l.settings.rxThreshold l.settings.breakLength = true ∧ l.hold.pauseCode ≠ l.hold.resumeCode ∧
    2 ≤ l.hold.highMark.toNat ∧ l.hold.highMark.toNat ≤ 128 ∧ l.hold.lowMark.toNat ≤ 126 ∧
    l.hold.lowMark.toNat + 2 ≤ l.hold.highMark.toNat

/-- A standing record's contents are ones that STANDING_PUT accepts (R135). -/
def Contents.Ok (c : Contents) : Prop := c.lineA ≠ c.lineB ∧ profileOk c.escCount c.guardTime = true

/-- Contents of every record are in range. -/
def RecordOk : StandingRecord → Prop
  | .empty => True
  | .idle c => c.Ok
  | .armed c => c.Ok
  | .active c => c.Ok

/-- All settings of the part are in range. -/
def State.SettingsLaw (s : State) : Prop :=
  (∀ n, (s.line n).SettingsOk) ∧ s.drainLimit ≠ 0 ∧ ∀ i, RecordOk (s.record i)

/-- A save in progress holds a snapshot of 272 bytes and has made at most 36 writes; out of it there is no snapshot (R148). -/
def State.PortLaw (s : State) : Prop :=
  s.port.writesMade ≤ Config.saveWrites ∧ (s.port.bus = .writing → s.port.writesMade < Config.saveWrites) ∧
    (s.port.state = .saving → s.port.snapshot.length = Config.imageSize) ∧
    (s.port.state ≠ .saving → s.port.snapshot = [] ∧ s.port.writesMade = 0)

/-! ### Terms of the statements: commands -/

/-- The host's commands are taken: RESET# is high (R165) and the Memory Port is not LOADING (R148). -/
def State.Takes (s : State) : Prop := s.resetLow = false ∧ s.port.state ≠ .loading

/-- A command taken now names the line in P0. -/
def State.Names (s : State) (n : LineNo) : Prop := s.Takes ∧ s.param 0 = lineByte n

/-- A command taken now names the slot in P0. -/
def State.NamesSlot (s : State) (i : SlotNo) : Prop := s.Takes ∧ s.param 0 = slotByte i

/-- The state with a result code left by an accepted command, and nothing else changed. -/
def State.withResult (s : State) (r : Result) : State := { s with host := { s.host with result := r } }

/-- The state with a refusal code left and CMD_REFUSED set, and nothing else changed (R166, R173). -/
def State.refusedWith (s : State) (r : Result) : State :=
  { s with host := { s.host with result := r, cmdRefused := true } }

/-- The commands that the host writes to COMMAND, but for RESET_PART (R167). -/
def hostCommands : List Instr :=
  [.openLine, .closeLine, .queryLine, .setFormat, .setTiming, .setFlow, .setQuota, .sendBreak, .flush, .connect, .release,
    .setPart, .standingPut, .standingArm, .standingDisarm, .standingDrop, .queryStanding, .save, .reload]

/-- No standing record reserves the line (R139). -/
def State.Unreserved (s : State) (n : LineNo) : Prop := ∀ i, reserves (s.record i) n = false

/-- What no traffic, call, connection or release touches is unchanged: drain limit, Memory Port, external memory, RESET#, first
tick, and the queue of commands. -/
def State.SameFrame (s t : State) : Prop :=
  t.drainLimit = s.drainLimit ∧ t.port = s.port ∧ t.memory = s.memory ∧ t.resetLow = s.resetLow ∧
    t.firstTick = s.firstTick ∧ t.pending = s.pending

/-! ### Terms of the statements: queues and the Hold Logic -/

/-- The Queue Store accepts an append to the queue (R23): the tail cell has room, or a cell is granted. -/
def State.Accepts (s : State) (q : QueueId) : Prop := 0 < (s.queue q).tailRoom ∨ s.grantable q = true

/-- The cells of one queue and of the free list together are as many as before. -/
def State.SamePool (s t : State) (q : QueueId) : Prop :=
  t.freeCount + (t.queue q).held = s.freeCount + (s.queue q).held

/-- A queue with an entry appended, a granted cell taken from the head of the free list (R20, R23). -/
def Queue.withEntry (q : Queue) (free : List Nat) (e : Entry) : Queue :=
  if 0 < q.tailRoom then { q with entries := q.entries ++ [e] }
  else { q with chain := q.chain ++ free.take 1, entries := q.entries ++ [e]
                headPos := if q.chain = [] then 0 else q.headPos }

/-- The free list after an append to the queue (R20, R23). -/
def Queue.freeAfter (q : Queue) (free : List Nat) : List Nat := if 0 < q.tailRoom then free else free.drop 1

/-- A queue without its oldest entry (R26, R27): the head position moves on, to the next cell after the last position of one,
and a queue that becomes empty holds no cell, with head position 0 (log entry 30). -/
def Queue.withoutOldest (q : Queue) : Queue :=
  if q.entries.length ≤ 1 then { q with chain := [], headPos := 0, entries := [] }
  else if q.headPos = 15 then { q with chain := q.chain.drop 1, headPos := 0, entries := q.entries.drop 1 }
  else { q with headPos := q.headPos + 1, entries := q.entries.drop 1 }

/-- The cells that the removal of the oldest entry returns to the end of the free list (R27). -/
def Queue.returned (q : Queue) : List Nat :=
  if q.entries.length ≤ 1 then q.chain else if q.headPos = 15 then q.chain.take 1 else []

/-- A queue that has been discarded (R28), with head position 0 (log entry 30). -/
def Queue.emptied (q : Queue) : Queue := { q with chain := [], headPos := 0, entries := [] }

/-- A line after its Hold Logic took an occupancy of its destination: input-held by the marks (R43), and a code that is then
pending begun by an idle transmitter, with announced set by it (R41, R47). -/
def Line.afterOccupancy (l : Line) (occupancy : Nat) : Line :=
  let h := l.heldAt occupancy
  if l.tx = .idle ∧ l.hold.method = .inband ∧ h ≠ announcedHeld l.announced then
    { l with inputHeld := h, announced := if h then .paused else .running
             tx := .flow (if h then l.hold.pauseCode else l.hold.resumeCode) l.settings.format }
  else { l with inputHeld := h }

/-- The Hold Logic of the line whose receive destination is TQ n, the peer of BRIDGED line n, takes the queue's occupancy (R30,
R42, R44). On a line that is not BRIDGED there is no such line. -/
def State.feederSees (s : State) (n : LineNo) : State :=
  match (s.line n).conn with
  | none => s
  | some d =>
    if (s.line d.peer).state = .bridged ∧ (s.line d.peer).conn.map (·.peer) = some n then
      s.modLine d.peer fun l => l.afterOccupancy (s.line n).tq.entries.length
    else s

/-! ### Terms of the statements: transmitters -/

/-- A transmitter begins an entry in the settings then in force (R9 to R12). -/
def Line.begins (l : Line) (e : Entry) : Line :=
  if e.kind = .brk then
    { l with tx := .breakSpacing l.settings.format
             breakTimer := if l.settings.breakLength = 0 then none else some (l.settings.breakLength.toNat + 1) }
  else { l with tx := .char e.value l.settings.format }

/-- TQ n takes an entry at its tail, and the change is told (R23, R30). -/
def State.stored (s : State) (n : LineNo) (e : Entry) : State :=
  State.feederSees ((s.withFree ((s.line n).tq.freeAfter s.freeList)).modLine n fun l =>
    { l with tq := l.tq.withEntry s.freeList e }) n

/-- Transmitter n takes the oldest entry of its TQ and begins it, and the change is told (R9, R26, R27, R30). -/
def State.begun (s : State) (n : LineNo) (e : Entry) : State :=
  State.feederSees ((s.withFree (s.freeList ++ (s.line n).tq.returned)).modLine n fun l =>
    { l with tq := l.tq.withoutOldest }.begins e) n

/-- Transmitter n begins its pending flow code (R47, R48). -/
def State.codeBegun (s : State) (n : LineNo) : State :=
  s.modLine n fun l =>
    { l with tx := .flow (if l.inputHeld then l.hold.pauseCode else l.hold.resumeCode) l.settings.format
             announced := if l.inputHeld then .paused else .running }

/-- An idle transmitter begins what is available and permitted: a pending flow code first, otherwise the oldest entry of its TQ
unless it is output-held (R9, R48, R50). -/
def State.mayBegin (s : State) (n : LineNo) : State :=
  if (s.line n).tx ≠ .idle then s
  else if (s.line n).codePending then s.codeBegun n
  else if (s.line n).outputHeld then s
  else
    match (s.line n).tq.entries with
    | [] => s
    | e :: _ => s.begun n e

/-- The transmitter is idle and begins an entry: no code is pending, it is not output-held, and its TQ is not empty (R9). -/
def Line.CanBegin (l : Line) : Prop :=
  l.tx = .idle ∧ l.codePending = false ∧ l.outputHeld = false ∧ l.tq.entries ≠ []

/-! ### Terms of the statements: connections -/

/-- The escape monitor without a match in progress (R123, R124): READY without a guard, otherwise SETTLING with the silence timer
at the guard. -/
def unmatched (guardTime : Byte) : Monitor :=
  if guardTime = 0 then { state := .ready, count := 0, silence := none, holding := [] }
  else { state := .settling, count := 0, silence := some (guardTime.toNat + 1), holding := [] }

/-- The escape monitor that a line starts on becoming BRIDGED on a connection (R119). -/
def monitorAtStart (c : Connection) : Monitor :=
  if c.escCount = 0 ∨ c.monitorFlag = false then { state := .off, count := 0, silence := none, holding := [] }
  else unmatched c.guardTime

/-- The idle timer as it is started or restarted: one minute is 6,000 ticks, and a limit of 0 starts none (R2, R99). -/
def idleTimerOf (limit : Byte) : Timer := if limit = 0 then none else some (limit.toNat * 6000 + 1)

/-- A line that becomes BRIDGED on a connection, with its Hold Logic set on the peer's TQ and its monitor started (R82,
R141). -/
def Line.bridgedOn (l : Line) (c : Connection) (peerTq : Nat) : Line :=
  { ({ l with state := .bridged, conn := some c } : Line).afterOccupancy peerTq with monitor := monitorAtStart c }

/-- Lines x and y are BRIDGED with each other, and c is the connection in x's record. -/
def State.Bridged (s : State) (x y : LineNo) (c : Connection) : Prop :=
  x ≠ y ∧ (s.line x).state = .bridged ∧ (s.line y).state = .bridged ∧ (s.line x).conn = some c ∧ c.peer = y ∧
    (s.line y).conn.map (·.peer) = some x

/-- The connection of an armed record made, as it is when both TQs are empty: line a BRIDGED as CALLER with the idle timer
running, line b as CALLED, the record ACTIVE, CONNECTED with the slot posted (R141). -/
def State.withConnection (s : State) (i : SlotNo) (c : Contents) : State :=
  let p : Connection :=
    { peer := c.lineB, role := .caller, origin := .standing i, escChar := c.escChar, escCount := c.escCount
      guardTime := c.guardTime, monitorFlag := c.monitorA, breakAction := c.breakAction, idleLimit := c.idleLimit }
  let t := (s.modLine c.lineA fun l => { l.bridgedOn p 0 with idleTimer := idleTimerOf c.idleLimit }).modLine c.lineB fun l =>
    l.bridgedOn { p with peer := c.lineA, role := .called, monitorFlag := c.monitorB } 0
  { t.setRecord i (.active c) with
    host := postRecord .connected (lineByte c.lineA) (lineByte c.lineB) (0x80 ||| BitVec.ofNat 8 i.val) s.host }

/-- The conditions of establishment on a record's lines (R140): both HOST with their TQs empty and their recognised ready levels
present. -/
def State.Conditions (s : State) (c : Contents) : Prop :=
  ∀ n, n = c.lineA ∨ n = c.lineB → (s.line n).state = .host ∧ (s.line n).tq.entries = [] ∧ (s.line n).ready = true

/-- What the evaluation that a change on line n brings makes of the state (R140, R141): an ARMED record that names n and whose
conditions hold is established, and otherwise nothing happens. -/
def State.Evaluated (s t : State) (n : LineNo) : Prop :=
  ((∀ i c, s.record i = .armed c → c.lineA = n ∨ c.lineB = n → ¬ s.Conditions c) → t = s) ∧
    ∀ i c, s.record i = .armed c → c.lineA = n ∨ c.lineB = n → c.lineA ≠ c.lineB →
      (∀ j, j ≠ i → reserves (s.record j) n = false) → s.Conditions c → t = s.withConnection i c

/-- What the evaluations of the two lines of a failed call make of the state, in either order (R86 leaves it open, log entry
12). -/
def State.EvaluatedBoth (s t : State) (x y : LineNo) : Prop :=
  (∃ u, s.Evaluated u x ∧ u.Evaluated t y) ∨ ∃ u, s.Evaluated u y ∧ u.Evaluated t x

/-- What an idle transmitter's beginning comes to: an entry begun may leave the TQ empty, which is an evaluation (R30, R140). -/
def State.Begins (s t : State) (n : LineNo) : Prop :=
  ((s.line n).CanBegin → (s.mayBegin n).Evaluated t n) ∧ (¬ (s.line n).CanBegin → t = s.mayBegin n)

/-! ### Terms of the statements: received entries -/

/-- A line's overrun with the queue that refused, 00h its own RQ and 01h the peer's TQ: reported if the flag is clear (R67). -/
def State.overrunOf (s : State) (x : LineNo) (place : Byte) : State :=
  if (s.line x).overrun then s
  else { s.modLine x (fun l => { l with overrun := true }) with
    host := postRecord .overrun (lineByte x) 0xFF place s.host }

/-- An entry of BRIDGED line x passed on to TQ y: stored, with x's overrun-reported flag cleared and an idle transmitter of a TQ
that was empty beginning it, or an overrun of x (R66 to R68). -/
def State.passedOn (s : State) (x y : LineNo) (e : Entry) : State :=
  if 0 < (s.line y).tq.tailRoom ∨ s.grantable (.tq y) = true then
    let t := (s.modLine x fun l => { l with overrun := false }).stored y e
    if (s.line y).tq.entries = [] then t.mayBegin y else t
  else s.overrunOf x 0x01

/-- The entries of a batch that TQ y accepts, one after another up to the first refusal (R25). -/
def State.acceptedOf (y : LineNo) : List Entry → State → List Entry
  | [], _ => []
  | e :: es, s =>
    if 0 < (s.line y).tq.tailRoom ∨ s.grantable (.tq y) = true then e :: State.acceptedOf y es (s.stored y e) else []

/-- The holding list of line x handed over to TQ y as one batch (R25, R69, R127): the accepted entries are stored and clear the
overrun-reported flag, an idle transmitter of a TQ that was empty begins after the batch (log entry 13), and a refused rest is one
overrun. -/
def State.handedOver (s : State) (x y : LineNo) : State :=
  let batch := (s.line x).monitor.holding
  let t := s.modLine x fun l => { l with monitor := { l.monitor with holding := [], count := 0 } }
  let accepted := State.acceptedOf y batch t
  let u := accepted.foldl (fun v e => v.stored y e)
    (if accepted = [] then t else t.modLine x fun l => { l with overrun := false })
  let v := if accepted ≠ [] ∧ (s.line y).tq.entries = [] then u.mayBegin y else u
  if accepted.length < batch.length then v.overrunOf x 0x01 else v

/-- Line x has received a complete frame of an entry: the receiver leaves FRAME (R6), and the connection's idle timer is
restarted in the caller's record (R66, R99). -/
def State.heard (s : State) (x : LineNo) (c : Connection) (fmt : Format) (e : Entry) : State :=
  (s.modLine x fun l => { l with rx := if e.kind = .brk then .breakWait fmt else .idle [] }).modLine
    (if c.role = .caller then x else c.peer) fun l => { l with idleTimer := idleTimerOf c.idleLimit }

/-- The Hold Logic of the line does not consume the entry (R51). -/
def Line.NoCode (l : Line) (e : Entry) : Prop :=
  l.hold.method ≠ .inband ∨ e.kind ≠ .data ∨ (e.value ≠ l.hold.pauseCode ∧ e.value ≠ l.hold.resumeCode)

/-! ### Terms of the statements: release and draining -/

/-- What a BRIDGED line keeps when its connection is released (R103, steps 2 to 5). -/
def Line.released (l : Line) (drainLimit : Byte) : Line :=
  { l with state := .draining, conn := none, idleTimer := none, tally := 0
           drainTimer := if drainLimit = 0 then none else some (drainLimit.toNat * 10 + 1)
           monitor := { state := .off, count := 0, silence := none, holding := [] } }

/-- An ACTIVE record after the release of its connection (R144): ARMED for READY_LOST and IDLE, 04h and 05h, and IDLE for HOST,
ESCAPE and BREAK. -/
def afterConnection (reason : Byte) : StandingRecord → StandingRecord
  | .active c => if reason = 0x04 ∨ reason = 0x05 then .armed c else .idle c
  | .empty => .empty
  | .idle c => .idle c
  | .armed c => .armed c

/-- Steps 1 to 8 of the release step (R103) for BRIDGED lines x, where the cause arose, and y; x's list is handed over first (log
entry 11). -/
def State.connectionReleased (s : State) (x y : LineNo) (c : Connection) (reason : Byte) : State :=
  let s1 := (s.handedOver x y).handedOver y x
  let s5 := (s1.modLine x fun l => l.released s.drainLimit).modLine y fun l => l.released s.drainLimit
  let s6 := (s5.modLine x fun l => l.afterOccupancy l.rq.entries.length).modLine y fun l =>
    l.afterOccupancy l.rq.entries.length
  let s7 : State := { s6 with host := postRecord .released (lineByte x) (lineByte y) reason s6.host }
  match c.origin with
  | .ordered => s7
  | .standing i => s7.setRecord i (afterConnection reason (s7.record i))

/-- DRAINING line n returned to HOST, with DRAINED and its tally (R113). -/
def State.returned (s : State) (n : LineNo) : State :=
  { s.modLine n (fun l => { l with state := .host, drainTimer := none, tally := 0 }) with
    host := postRecord .drained (lineByte n) 0xFF (BitVec.ofNat 8 (min (s.line n).tally 255)) s.host }

/-- What the drain check of line n comes to: a complete drain returns the line to HOST, which is an evaluation (R110, R113,
R140). -/
def State.DrainChecked (s t : State) (n : LineNo) : Prop :=
  if (s.line n).state = .draining ∧ (s.line n).tq.entries = [] ∧ (s.line n).tx = .idle then (s.returned n).Evaluated t n
  else t = s

/-- What the whole release step makes of the state (R103): steps 1 to 8, then the drain check of x and that of y. -/
def State.ReleasesTo (s t : State) (x y : LineNo) (c : Connection) (reason : Byte) : Prop :=
  ∃ u, (s.connectionReleased x y c reason).DrainChecked u x ∧ u.DrainChecked t y

/-! ### The laws together -/

/-- Every law of the part at once. -/
structure State.Lawful (s : State) : Prop where
  pool     : s.PoolLaw
  queue    : s.QueueLaw
  quota    : s.QuotaLaw
  peer     : s.PeerLaw
  closed   : s.ClosedLaw
  loading  : s.LoadingLaw
  standing : s.StandingLaw
  timer    : s.TimerLaw
  ready    : s.ReadyLaw
  holding  : s.HoldingLaw
  held     : s.HeldLaw
  transmit : s.TransmitLaw
  prompt   : s.PromptLaw
  event    : s.host.EventLaw
  seq      : s.host.SeqLaw
  settings : s.SettingsLaw
  port     : s.PortLaw
  memory   : memoryWf s.memory = true
  enable   : s.host.irqEnable &&& 0xF8 = 0

end Sys2Proof.Machine
end

