-- ==== Sys2Proof/Certificates/Slice0/Obligations.lean ====
section
/-! DEFINITION. The statements about the SX-408: what each command does, what the laws of the part are, and how saving and
loading agree. -/

open Sys2Proof Sys2Proof.Machine

/-! ### The machine -/

/-- The command at the front of the queue is the one a step runs, on the state with the queue's rest. The queue is the model's
(log entry 1). -/
def Obligations.step_takes_front_command : Prop :=
  ∀ (c : Instr) (rest : List Instr) (s : State), s.pending = c :: rest → step s = exec c { s with pending := rest }

/-- Every law of the part holds right after reset. The head position 0 of a queue without a cell is the model's (log entry 30). -/
def Obligations.reset_state_is_lawful : Prop := State.reset.Lawful

/-- R20, R21: each cell is on the free list or in the chain of exactly one queue; a queue holds cells exactly while it holds
entries, and every cell of a chain but the tail cell is full. The head position 0 of a queue without a cell is the model's (log
entry 30). -/
def Obligations.step_keeps_queue_store_laws : Prop :=
  ∀ s t : State, s.PoolLaw ∧ s.QueueLaw → step s = .next t → t.PoolLaw ∧ t.QueueLaw

/-- R178: at most 32 records, OVERFLOW only as the newest, and consecutive sequence numbers. -/
def Obligations.step_keeps_event_queue_law : Prop :=
  ∀ s t : State, s.host.EventLaw ∧ s.host.SeqLaw → step s = .next t → t.host.EventLaw ∧ t.host.SeqLaw

/-- Line settings, hold settings, drain limit and standing records stay in the ranges that the commands and the load check,
bits 3 to 7 of IRQ_ENABLE stay 0, and the model's record of the external memory keeps its canonical form (log entry 14). -/
def Obligations.step_keeps_settings_in_range : Prop :=
  ∀ s t : State, s.SettingsLaw ∧ s.host.irqEnable &&& 0xF8 = 0 ∧ memoryWf s.memory = true → step s = .next t →
    t.SettingsLaw ∧ t.host.irqEnable &&& 0xF8 = 0 ∧ memoryWf t.memory = true

/-- The laws of the part and the other facts of Safety.lean, all at once: a lawful state steps to a lawful state. The head
position 0 of a queue without a cell is the model's (log entry 30). -/
def Obligations.step_keeps_every_law : Prop := ∀ s t : State, s.Lawful → step s = .next t → t.Lawful

/-! ### Reset -/

/-- R181: what the Host Port holds after RESET#, released after it was low, and after RESET_PART. -/
def Obligations.host_port_after_reset : Prop :=
  ∀ (s : State) (c : Instr) (r : Result),
    (c = .resetPin ∧ s.resetLow = true ∧ r = .none) ∨ (c = .resetPart ∧ s.resetLow = false ∧ r = .done) →
    ∃ t, exec c s = .next t ∧ t.host.result = r ∧ (∀ i, t.param i = 0) ∧ t.host.lineSelect = 0 ∧ t.host.irqEnable = 0 ∧
      t.host.rxMask = 0 ∧ t.host.txMask = 0 ∧ t.host.txRefused = false ∧ t.host.rxEmpty = false ∧
      t.host.popEmpty = false ∧ t.host.cmdRefused = false ∧ t.host.events = [] ∧ readRegister t 0x17 = some 0x00 ∧
      readRegister t 0x1C = some 0x00 ∧ t.host.nextSeq = 0 ∧ readRegister t 0x13 = some 0x00 ∧
      readRegister t 0x14 = some 0x00 ∧ (∀ n, (t.line n).state = .closed ∧ (t.line n).rq.entries = [] ∧
        (t.line n).tq.entries = []) ∧ t.irqLow = false ∧ t.port.state = .loading ∧ readRegister t 0x02 = some 0x01

/-- RESET# and RESET_PART differ in RESULT alone, and bring the lines, the Queue Store, the Standing List and the Memory Port
to the values of R18, R39, R56, R76, R117, R132, R147 and R148. That the HLDI levels and the memory stay, the values of the
last sample and of what is due from it, the head position 0 of a queue without a cell, and that a RESET_PIN which finds RESET#
high stands for a whole pulse, are the model's (log entries 8, 10, 14, 19 and 30). -/
def Obligations.blocks_after_reset : Prop :=
  ∀ s : State, ∃ t, exec .resetPin s = .next t ∧
    (s.resetLow = false → exec .resetPart s = .next (t.withResult .done)) ∧
    (∀ n, t.line n =
      { state := .closed, conn := none, answerTimer := none, idleTimer := none, drainTimer := none, tally := 0
        overrun := false
        settings := { format := { dataBits := .eight, parity := .none, stopBits := .one, rate := 6 }, openAtStart := false
                      rxThreshold := 1, txThreshold := 0, breakLength := 25, readyGrace := 10 }
        hold := { method := .none, pauseCode := 0x13, resumeCode := 0x11, highMark := 24, lowMark := 8 }
        rq := { chain := [], headPos := 0, entries := [], reserve := 2, limit := 16 }
        tq := { chain := [], headPos := 0, entries := [], reserve := 2, limit := 16 }
        rx := .disabled, tx := .idle, breakTimer := none, ready := false, graceCount := 0, rdySample := false
        readyDue := .none, hldi := (s.line n).hldi, inputHeld := false, announced := .running, receivedPause := false
        monitor := { state := .off, count := 0, silence := none, holding := [] } }) ∧
    t.freeList = List.range 128 ∧ t.unmetTotal = 32 ∧ t.drainLimit = 50 ∧ (∀ i, t.record i = .empty) ∧
    t.port = { state := .loading, bus := .reading, loadBuffer := [], snapshot := [], writesMade := 0, pollTimer := none } ∧
    t.firstTick = true ∧ t.resetLow = false ∧ t.memory = s.memory ∧ t.pending = s.pending ∧
    (∀ n, t.call n = false ∧ t.hldo n = false ∧ (t.line n).outputHeld = false)

/-- RESET# going low cuts every item, deasserts CALL and HLDO and brings MSCL and MSDA to rest; that nothing else changes before
its release is the model's (log entry 9). While it is low, accesses are not taken: no write has an effect, and a read leaves D0
to D7 undriven. -/
def Obligations.reset_pin_low_cuts_items_and_accesses : Prop :=
  (∀ s : State, ∃ t, exec .resetPinAsserted s = .next t ∧ t.resetLow = true ∧
    (∀ n, t.line n = { s.line n with tx := .idle, breakTimer := none }) ∧
    (∀ n, t.txdIdle n = true ∧ t.call n = false ∧ t.hldo n = false) ∧ t.memoryBus = [] ∧
    t.port = { s.port with bus := .quiet } ∧ t.host = { s.host with readData := none } ∧ t.freeList = s.freeList ∧
    t.standing = s.standing ∧ t.drainLimit = s.drainLimit ∧ t.memory = s.memory ∧ t.firstTick = s.firstTick ∧
    t.pending = s.pending) ∧
  ∀ s : State, s.resetLow = true →
    (∀ c ∈ Instr.resetPart :: hostCommands, exec c s = .next s) ∧
    (∀ v, exec (.unknownCommand v) s = .next s ∧ exec (.txChar v) s = .next s ∧ exec (.evtPop v) s = .next s) ∧
    (∀ offset v, exec (.registerWrite offset v) s = .next s) ∧
    exec .rxChar s = .next { s with host := { s.host with readData := none } } ∧
    exec .partStatus s = .next { s with host := { s.host with readData := none } } ∧
    ∀ offset, readRegister s offset = none

/-! ### The Host Port -/

/-- R164, R168, R169, R176: what a write to P0 to P7, LINE_SELECT, IRQ_ENABLE or a mask stores, and that a write to an offset
with no write function is ignored. -/
def Obligations.register_writes : Prop :=
  ∀ (s : State) (v : Byte), s.resetLow = false →
    (∀ i : Fin 8, exec (.registerWrite (BitVec.ofNat 5 (5 + i.val)) v) s =
      .next { s with host := { s.host with params := s.host.params.set i v } }) ∧
    (∀ n : LineNo, exec (.registerWrite 0x0D (lineByte n)) s = .next { s with host := { s.host with lineSelect := n } }) ∧
    (8 ≤ v.toNat → exec (.registerWrite 0x0D v) s = .next s) ∧
    exec (.registerWrite 0x03 v) s = .next { s with host := { s.host with irqEnable := v &&& 0x07 } } ∧
    exec (.registerWrite 0x15 v) s = .next { s with host := { s.host with rxMask := v } } ∧
    exec (.registerWrite 0x16 v) s = .next { s with host := { s.host with txMask := v } } ∧
    (∀ offset ∈ [0x00#5, 0x01#5, 0x02#5, 0x0E#5, 0x0F#5, 0x11#5, 0x12#5, 0x13#5, 0x14#5, 0x17#5, 0x18#5, 0x19#5, 0x1A#5,
      0x1B#5, 0x1D#5, 0x1E#5, 0x1F#5], exec (.registerWrite offset v) s = .next s)

/-- R164, R166, R168 to R170, R174, R176: what a read returns at the offsets with no statement of their own: ID, REVISION,
IRQ_ENABLE, RESULT, P0 to P7, LINE_SELECT, RX_KIND and RX_CHAR of the selected line, 10h, TX_ROOM, RQ_COUNT, the masks,
EVT_COUNT and POOL_FREE. -/
def Obligations.register_reads : Prop :=
  ∀ (s : State) (n : LineNo), s.resetLow = false → s.host.lineSelect = n →
    readRegister s 0x00 = some 0x4C ∧ readRegister s 0x01 = some 0x01 ∧ readRegister s 0x03 = some s.host.irqEnable ∧
    readRegister s 0x04 = some (resultCode s.host.result) ∧
    (∀ i : Fin 8, readRegister s (BitVec.ofNat 5 (5 + i.val)) = some (s.host.params.get i)) ∧
    readRegister s 0x0D = some (lineByte n) ∧
    ((s.line n).rq.entries = [] → readRegister s 0x0E = some 0x00 ∧ readRegister s 0x0F = some 0x00) ∧
    (∀ e rest, (s.line n).rq.entries = e :: rest →
      readRegister s 0x0E = some (match e.kind with | .data => 0x01 | .error => 0x02 | .brk => 0x03) ∧
      readRegister s 0x0F = some (if e.kind = .brk then 0x00 else e.value)) ∧
    readRegister s 0x10 = some 0x00 ∧
    readRegister s 0x11 = some (BitVec.ofNat 8 (min (s.appendRoom (.tq n)) 255)) ∧
    readRegister s 0x12 = some (BitVec.ofNat 8 (min (s.line n).rq.entries.length 255)) ∧
    readRegister s 0x15 = some s.host.rxMask ∧ readRegister s 0x16 = some s.host.txMask ∧
    readRegister s 0x1C = some (BitVec.ofNat 8 s.host.events.length) ∧
    readRegister s 0x1D = some (BitVec.ofNat 8 s.freeList.length)

/-- R164, R166, R167, R177: the codes of results, event kinds and commands, and the row of the table that a write access at
each offset is. That a REGISTER_WRITE to 04h, 10h or 1Ch, an ill-formed row, executes as the command, TX_CHAR or EVT_POP that
the write spells is the model's (log entry 17). -/
def Obligations.window_codes : Prop :=
  ([Result.none, .done, .started, .badLine, .badValue, .wrongState, .notOpen, .notReady, .reservedLine, .noQuota, .memoryBusy,
    .loading, .unknown].map resultCode =
      [0x00, 0x01, 0x02, 0x10, 0x11, 0x12, 0x13, 0x14, 0x15, 0x16, 0x17, 0x18, 0x19]) ∧
  ([EventKind.loadDone, .saveDone, .connected, .callFailed, .released, .drained, .overrun, .readyChange, .overflow].map kindCode
    = [0x01, 0x02, 0x03, 0x04, 0x05, 0x06, 0x07, 0x08, 0x09]) ∧
  (∀ code, ([(0x01, Instr.openLine), (0x02, .closeLine), (0x03, .queryLine), (0x04, .setFormat), (0x05, .setTiming),
      (0x06, .setFlow), (0x07, .setQuota), (0x08, .sendBreak), (0x09, .flush), (0x10, .connect), (0x11, .release),
      (0x12, .setPart), (0x20, .standingPut), (0x21, .standingArm), (0x22, .standingDisarm), (0x23, .standingDrop),
      (0x24, .queryStanding), (0x30, .save), (0x31, .reload), (0x5A, .resetPart)] : List (Byte × Instr)).lookup code =
    (commandOfCode code).map instrOfCommand) ∧
  (∀ code, instrOfWrite 0x04 code = ((commandOfCode code).map instrOfCommand).getD (.unknownCommand code)) ∧
  (∀ v, instrOfWrite 0x10 v = .txChar v ∧ instrOfWrite 0x1C v = .evtPop v ∧
    ∀ offset, offset ≠ 0x04 → offset ≠ 0x10 → offset ≠ 0x1C → instrOfWrite offset v = .registerWrite offset v) ∧
  ∀ offset v s, exec (.registerWrite offset v) s = exec (instrOfWrite offset v) s

/-- R173: a read of PART_STATUS returns the port's state in bits 0 and 1 and the sticky indications in bits 2 to 5, and clears
the indications and nothing else. That the byte read stays noted after its strobe is the model's (log entry 15). -/
def Obligations.part_status_reads_and_clears : Prop :=
  ∀ s : State, s.resetLow = false → ∃ b : Byte, readRegister s 0x02 = some b ∧
    exec .partStatus s = .next { s with host := { s.host with
      readData := some b, txRefused := false, rxEmpty := false, popEmpty := false, cmdRefused := false } } ∧
    b.getLsbD 0 = (s.port.state == .loading) ∧ b.getLsbD 1 = (s.port.state == .saving) ∧
    b.getLsbD 2 = s.host.txRefused ∧ b.getLsbD 3 = s.host.rxEmpty ∧ b.getLsbD 4 = s.host.popEmpty ∧
    b.getLsbD 5 = s.host.cmdRefused ∧ b.getLsbD 6 = false ∧ b.getLsbD 7 = false

/-- R179: EVT_POP removes the head record, whatever value is written, or sets POP_EMPTY on an empty queue; the head registers
read the head record. -/
def Obligations.evt_pop_removes_head : Prop :=
  ∀ (s : State) (v : Byte), s.resetLow = false →
    (s.host.events = [] → exec (.evtPop v) s = .next { s with host := { s.host with popEmpty := true } } ∧
      readRegister s 0x17 = some 0x00 ∧ readRegister s 0x18 = some 0x00 ∧ readRegister s 0x19 = some 0x00 ∧
      readRegister s 0x1A = some 0x00 ∧ readRegister s 0x1B = some 0x00) ∧
    (∀ e rest, s.host.events = e :: rest →
      exec (.evtPop v) s = .next { s with host := { s.host with events := rest } } ∧
      readRegister s 0x17 = some (kindCode e.kind) ∧ readRegister s 0x18 = some e.line ∧
      readRegister s 0x19 = some e.peer ∧ readRegister s 0x1A = some e.info ∧ readRegister s 0x1B = some e.seq)

/-- R178, steps 1 to 3: the posting rule, and that it keeps the law of the event queue and the consecutive sequence numbers. -/
def Obligations.posting_rule : Prop :=
  ∀ (h : HostPort) (kind : EventKind) (line peer info : Byte),
    (h.EventLaw ∧ h.SeqLaw →
      (postRecord kind line peer info h).EventLaw ∧ (postRecord kind line peer info h).SeqLaw) ∧
    (∀ es o, h.events = es ++ [o] → o.kind = .overflow →
      postRecord kind line peer info h =
        { h with events := es ++ [{ o with info := if o.info = 0xFF then 0xFF else o.info + 1 }] }) ∧
    ((∀ es o, h.events = es ++ [o] → o.kind ≠ .overflow) →
      (h.events.length = 31 → postRecord kind line peer info h =
        { h with events := h.events ++ [{ kind := .overflow, line := 0xFF, peer := 0xFF, info := 1, seq := h.nextSeq }]
                 nextSeq := h.nextSeq + 1 }) ∧
      (h.events.length ≠ 31 → postRecord kind line peer info h =
        { h with events := h.events ++ [{ kind := kind, line := line, peer := peer, info := info, seq := h.nextSeq }]
                 nextSeq := h.nextSeq + 1 }))

/-- R148, R166, R167: a refused command leaves its code, sets CMD_REFUSED and changes nothing else; a code that names no command
leaves UNKNOWN in the same way, LOADING included; and while the Memory Port is LOADING every defined command but RESET_PART is
refused with LOADING, and TX_CHAR writes are refused. -/
def Obligations.refused_command_changes_nothing : Prop :=
  ∀ s t : State, s.resetLow = false →
    (∀ c ∈ hostCommands, exec c s = .next t → 0x10 ≤ (resultCode t.host.result).toNat →
      t = { s with host := { s.host with result := t.host.result, cmdRefused := true } }) ∧
    (∀ code, commandOfCode code = none →
      exec (.unknownCommand code) s = .next { s with host := { s.host with result := .unknown, cmdRefused := true } }) ∧
    (s.port.state = .loading →
      (∀ c ∈ hostCommands, exec c s = .next { s with host := { s.host with result := .loading, cmdRefused := true } }) ∧
      ∀ v, exec (.txChar v) s = .next { s with host := { s.host with txRefused := true } })

/-- R174 to R176: bit n of READY_LEVELS is line n's recognised ready level, and bit n of CALL_LEVELS is CALLn, asserted exactly
while line n is OFFERED or BRIDGED; the attention bits follow the queues and the thresholds; and when IRQ# is driven low.
RESET# is high: while it is low no read is taken, and IRQ# then is the model's (log entry 9). -/
def Obligations.levels_attention_and_interrupt : Prop :=
  ∀ s : State, s.resetLow = false → ∃ ready call rx tx : Byte, readRegister s 0x1E = some ready ∧
    readRegister s 0x1F = some call ∧ readRegister s 0x13 = some rx ∧ readRegister s 0x14 = some tx ∧
    (∀ n : LineNo, (ready.getLsbD n.val = true ↔ (s.line n).ready = true) ∧ (call.getLsbD n.val = s.call n) ∧
      (s.call n = true ↔ (s.line n).state = .offered ∨ (s.line n).state = .bridged)) ∧
    (∀ x : LineNo, rx.getLsbD x.val = true ↔
      (s.line x).settings.rxThreshold.toNat ≤ (s.line x).rq.entries.length ∨ ∃ e ∈ (s.line x).rq.entries, e.kind ≠ .data) ∧
    (∀ x : LineNo, tx.getLsbD x.val = true ↔
      (s.line x).state = .host ∧ (s.line x).tq.entries.length ≤ (s.line x).settings.txThreshold.toNat) ∧
    (s.irqLow = true ↔
      (s.host.irqEnable.getLsbD 0 = true ∧ s.host.events ≠ []) ∨
      (s.host.irqEnable.getLsbD 1 = true ∧ ∃ x : LineNo, rx.getLsbD x.val = true ∧ s.host.rxMask.getLsbD x.val = true) ∨
      (s.host.irqEnable.getLsbD 2 = true ∧ ∃ x : LineNo, tx.getLsbD x.val = true ∧ s.host.txMask.getLsbD x.val = true))

/-- R16, R17, R35, R53, R70, R71, R75, R171, R172: when the commands that name one line are refused, by their checks in order: a
line above 7 with BAD_LINE, then parameters out of range with BAD_VALUE, then the line's state with NOT_OPEN or WRONG_STATE.
LOADING is the check before these, and NO_QUOTA the one after them. -/
def Obligations.line_command_refusals : Prop :=
  ∀ s : State, s.Takes →
    (8 ≤ (s.param 0).toNat → ∀ c ∈ [Instr.openLine, .closeLine, .queryLine, .setFormat, .setTiming, .setFlow, .setQuota,
      .sendBreak, .flush, .release], exec c s = .next (s.refusedWith .badLine)) ∧
    ∀ n : LineNo, s.param 0 = lineByte n →
      ((s.line n).state ≠ .closed → exec .openLine s = .next (s.refusedWith .wrongState)) ∧
      ((s.line n).state = .closed → ∀ c ∈ [Instr.closeLine, .sendBreak, .release],
        exec c s = .next (s.refusedWith .notOpen)) ∧
      ((s.line n).state ≠ .closed → (s.line n).state ≠ .host → ∀ c ∈ [Instr.closeLine, .sendBreak],
        exec c s = .next (s.refusedWith .wrongState)) ∧
      ((s.line n).state = .host → exec .release s = .next (s.refusedWith .wrongState)) ∧
      (∀ formatOk : Prop, (formatOk ↔ (s.param 1 = 7 ∨ s.param 1 = 8) ∧ (s.param 2).toNat ≤ 2 ∧
          (s.param 3 = 1 ∨ s.param 3 = 2) ∧ (s.param 4).toNat ≤ 11 ∧ (s.param 5).toNat ≤ 1) →
        (¬ formatOk → exec .setFormat s = .next (s.refusedWith .badValue)) ∧
        (formatOk → (s.line n).state ≠ .closed → (s.line n).state ≠ .host →
          exec .setFormat s = .next (s.refusedWith .wrongState))) ∧
      (∀ timesOk : Prop, (timesOk ↔ 1 ≤ (s.param 1).toNat ∧ 1 ≤ (s.param 3).toNat ∧ (s.param 3).toNat ≤ 25) →
        (¬ timesOk → exec .setTiming s = .next (s.refusedWith .badValue)) ∧
        (timesOk → (s.line n).state ≠ .closed → (s.line n).state ≠ .host →
          exec .setTiming s = .next (s.refusedWith .wrongState))) ∧
      (∀ flowOk : Prop, (flowOk ↔ (s.param 1).toNat ≤ 2 ∧ s.param 2 ≠ s.param 3 ∧ 2 ≤ (s.param 4).toNat ∧
          (s.param 4).toNat ≤ 128 ∧ (s.param 5).toNat ≤ 126 ∧ (s.param 5).toNat + 2 ≤ (s.param 4).toNat) →
        (¬ flowOk → exec .setFlow s = .next (s.refusedWith .badValue)) ∧
        (flowOk → (s.line n).state ≠ .closed → (s.line n).state ≠ .host →
          exec .setFlow s = .next (s.refusedWith .wrongState))) ∧
      (¬ ((s.param 1).toNat ≤ 12 ∧ 1 ≤ (s.param 2).toNat ∧ (s.param 2).toNat ≤ 64 ∧ (s.param 3).toNat ≤ 12 ∧
          1 ≤ (s.param 4).toNat ∧ (s.param 4).toNat ≤ 64 ∧ (s.param 1).toNat ≤ (s.param 2).toNat ∧
          (s.param 3).toNat ≤ (s.param 4).toNat) →
        exec .setQuota s = .next (s.refusedWith .badValue)) ∧
      (s.param 1 = 0 ∨ 3 < (s.param 1).toNat → exec .flush s = .next (s.refusedWith .badValue)) ∧
      (s.param 1 = 1 ∨ s.param 1 = 2 ∨ s.param 1 = 3 → (s.line n).state = .closed →
        exec .flush s = .next (s.refusedWith .notOpen)) ∧
      (s.param 1 = 2 ∨ s.param 1 = 3 → (s.line n).state ≠ .closed → (s.line n).state ≠ .host →
        exec .flush s = .next (s.refusedWith .wrongState))

/-- R79, R135 to R139: when CONNECT and the commands of the Standing List are refused, by their checks in order. -/
def Obligations.call_and_standing_refusals : Prop :=
  ∀ s : State, s.Takes →
    (8 ≤ (s.param 0).toNat ∨ 8 ≤ (s.param 1).toNat ∨ s.param 0 = s.param 1 →
      exec .connect s = .next (s.refusedWith .badLine)) ∧
    (∀ x y : LineNo, s.param 0 = lineByte x → s.param 1 = lineByte y → x ≠ y →
      ∀ callOk : Prop, (callOk ↔ 1 ≤ (s.param 2).toNat ∧ (s.param 2).toNat ≤ 60 ∧ (s.param 4).toNat ≤ 4 ∧
        (s.param 5).toNat ≤ 250 ∧ (s.param 6).toNat ≤ 7) →
      (¬ callOk → exec .connect s = .next (s.refusedWith .badValue)) ∧
      (callOk → (s.line x).state ≠ .host ∨ (s.line y).state ≠ .host →
        exec .connect s = .next (s.refusedWith .wrongState)) ∧
      (callOk → (s.line x).state = .host → (s.line y).state = .host → ∀ isReserved : LineNo → Prop,
        (∀ m, isReserved m ↔
          ∃ i c, (s.record i = .armed c ∨ s.record i = .active c) ∧ (c.lineA = m ∨ c.lineB = m)) →
        (isReserved x ∨ isReserved y → exec .connect s = .next (s.refusedWith .reservedLine)) ∧
        (¬ isReserved x → ¬ isReserved y → (s.line x).ready = false →
          exec .connect s = .next (s.refusedWith .notReady)))) ∧
    (4 ≤ (s.param 0).toNat → ∀ c ∈ [Instr.standingPut, .standingArm, .standingDisarm, .standingDrop, .queryStanding],
      exec c s = .next (s.refusedWith .badLine)) ∧
    ∀ i : SlotNo, s.param 0 = slotByte i →
      (8 ≤ (s.param 1).toNat ∨ 8 ≤ (s.param 2).toNat ∨ s.param 1 = s.param 2 →
        exec .standingPut s = .next (s.refusedWith .badLine)) ∧
      (∀ a b : LineNo, s.param 1 = lineByte a → s.param 2 = lineByte b → a ≠ b →
        (4 < (s.param 4).toNat ∨ 250 < (s.param 5).toNat ∨ 15 < (s.param 6).toNat →
          exec .standingPut s = .next (s.refusedWith .badValue)) ∧
        ((s.param 4).toNat ≤ 4 → (s.param 5).toNat ≤ 250 → (s.param 6).toNat ≤ 15 → ∀ c,
          s.record i = .armed c ∨ s.record i = .active c →
            exec .standingPut s = .next (s.refusedWith .wrongState))) ∧
      (s.record i = .empty → ∀ c ∈ [Instr.standingArm, .standingDisarm],
        exec c s = .next (s.refusedWith .wrongState)) ∧
      (∀ d, s.record i = .active d → ∀ c ∈ [Instr.standingArm, .standingDisarm, .standingDrop],
        exec c s = .next (s.refusedWith .wrongState)) ∧
      ∀ d, s.record i = .idle d → ∀ j c, j ≠ i → s.record j = .armed c ∨ s.record j = .active c →
        (c.lineA = d.lineA ∨ c.lineB = d.lineA ∨ c.lineA = d.lineB ∨ c.lineB = d.lineB) →
          exec .standingArm s = .next (s.refusedWith .reservedLine)

/-! ### The data ports and the Queue Store -/

/-- R26, R27, R169: a read of RX_CHAR takes the oldest entry of the selected RQ and returns its value, 00h for a BREAK; the
Hold Logic takes the new occupancy where the RQ is the line's destination, and nothing else changes. On an empty RQ it returns
00h and sets RX_EMPTY. The head position 0 of a queue without a cell, and that the byte read stays noted after its strobe, are the
model's (log entries 15 and 30). -/
def Obligations.rx_char_takes_oldest_entry : Prop :=
  ∀ (s : State) (n : LineNo), s.resetLow = false → s.host.lineSelect = n →
    ((s.line n).rq.entries = [] →
      exec .rxChar s = .next { s with host := { s.host with readData := some 0x00, rxEmpty := true } }) ∧
    (∀ e rest, (s.line n).rq.entries = e :: rest → ∀ u : State,
      u = { s.withFree (s.freeList ++ (s.line n).rq.returned) with
        host := { s.host with readData := some (if e.kind = .brk then 0x00 else e.value) } } →
      ((s.line n).state ≠ .bridged → exec .rxChar s =
        .next (u.modLine n fun l => { l with rq := l.rq.withoutOldest }.afterOccupancy rest.length)) ∧
      ((s.line n).state = .bridged → (s.line n).conn ≠ none → exec .rxChar s =
        .next (u.modLine n fun l => { l with rq := l.rq.withoutOldest })))

/-- R170: TX_CHAR appends a DATA entry of the value at the tail of a HOST line's TQ, where it waits behind other entries, for a
busy transmitter, or while the line is output-held; otherwise the transmitter begins it at once. A write for a line that is not
HOST, or that the Queue Store refuses, is discarded and sets TX_REFUSED. The head position 0 of a queue without a cell is the
model's (log entry 30). -/
def Obligations.tx_char_appends : Prop :=
  ∀ (s : State) (n : LineNo) (v : Byte), s.Takes → s.host.lineSelect = n → ∀ e : Entry, e = { kind := .data, value := v } →
    ((s.line n).state ≠ .host ∨ ¬ s.Accepts (.tq n) →
      exec (.txChar v) s = .next { s with host := { s.host with txRefused := true } }) ∧
    ((s.line n).state = .host → s.Accepts (.tq n) →
      ((s.line n).tq.entries ≠ [] ∨ (s.line n).tx ≠ .idle ∨
          (s.line n).codePending = false ∧ (s.line n).outputHeld = true →
        exec (.txChar v) s = .next (s.stored n e)) ∧
      ((s.line n).tq.entries = [] → (s.line n).tx = .idle → (s.line n).codePending = false →
        (s.line n).outputHeld = false → ∃ t, exec (.txChar v) s = .next t ∧ ((s.stored n e).begun n e).Evaluated t n ∧
        (((s.stored n e).begun n e).line n).tx = .char v (s.line n).settings.format))

/-- R171, R11: SEND_BREAK appends a BREAK entry to a HOST line's TQ, where it waits in its turn; an idle transmitter that may
begin it spaces at once with the break timer at the break length; a refused append leaves NO_QUOTA and sets CMD_REFUSED. The
head position 0 of a queue without a cell is the model's (log entry 30). -/
def Obligations.send_break_appends : Prop :=
  ∀ (s : State) (n : LineNo), s.Names n → (s.line n).state = .host → ∀ e : Entry, e = { kind := .brk, value := 0 } →
    (¬ s.Accepts (.tq n) →
      exec .sendBreak s = .next { s with host := { s.host with result := .noQuota, cmdRefused := true } }) ∧
    (s.Accepts (.tq n) →
      ((s.line n).tq.entries ≠ [] ∨ (s.line n).tx ≠ .idle ∨
          (s.line n).codePending = false ∧ (s.line n).outputHeld = true →
        exec .sendBreak s = .next ((s.stored n e).withResult .done)) ∧
      ((s.line n).tq.entries = [] → (s.line n).tx = .idle → (s.line n).codePending = false →
        (s.line n).outputHeld = false → ∃ t, exec .sendBreak s = .next (t.withResult .done) ∧
        ((s.stored n e).begun n e).Evaluated t n ∧
        (1 ≤ (s.line n).settings.breakLength.toNat →
          (((s.stored n e).begun n e).line n).tx = .breakSpacing (s.line n).settings.format ∧
          (((s.stored n e).begun n e).line n).breakTimer = some ((s.line n).settings.breakLength.toNat + 1))))

/-- R20, R23: the append rule. It decides by the tail cell, the limit, the free count and the unmet reserves of the others; an
accepted entry joins at the tail, in a cell taken from the head of the free list where the tail cell has no room, with the head
position 0 on a first grant; the queue's reserve and limit stay, a refused append changes nothing, and nothing else changes. -/
def Obligations.append_rule : Prop :=
  ∀ (s : State) (q : QueueId) (e : Entry),
    ((s.append q e).isSome = true ↔
      0 < (s.queue q).tailRoom ∨
        ((s.queue q).held < (s.queue q).limit.toNat ∧ 1 ≤ s.freeCount ∧
          ((s.queue q).held < (s.queue q).reserve.toNat ∨
            ((allQueues.filter (· ≠ q)).map fun p => (s.queue p).unmet).sum < s.freeCount))) ∧
    ∀ t v, s.append q e = some t →
      v = (if 0 < (s.queue q).tailRoom then { s.queue q with entries := (s.queue q).entries ++ [e] }
        else { s.queue q with
          chain := (s.queue q).chain ++ s.freeList.take 1, entries := (s.queue q).entries ++ [e]
          headPos := if (s.queue q).chain = [] then 0 else (s.queue q).headPos }) →
      t = (s.withFree (if 0 < (s.queue q).tailRoom then s.freeList else s.freeList.drop 1)).setQueue q v ∧
      t.queue q = v ∧ (∀ p, p ≠ q → t.queue p = s.queue p) ∧ s.SamePool t q ∧ ((s.queue q).Shape → v.Shape)

/-- R31: the append room is the number of entries that could be appended at once, one after another. -/
def Obligations.append_room_counts_appends : Prop :=
  ∀ (s : State) (q : QueueId) (es : List Entry), s.QueueLaw → s.QuotaLaw →
    ((es.foldlM (fun t e => State.append t q e) s).isSome = true ↔ es.length ≤ s.appendRoom q)

/-- R35, R36: SET_QUOTA stores the four settings and moves no cell when the new reserves sum to at most 128 and the free count
covers the new unmet total, and is refused with NO_QUOTA otherwise. -/
def Obligations.set_quota_result : Prop :=
  ∀ (s u : State) (n : LineNo), s.Names n →
    quotaOk (s.param 1) (s.param 2) = true → quotaOk (s.param 3) (s.param 4) = true →
    u = s.modLine n (fun l => { l with rq := { l.rq with reserve := s.param 1, limit := s.param 2 }
                                       tq := { l.tq with reserve := s.param 3, limit := s.param 4 } }) →
    (u.reserveTotal ≤ 128 → u.unmetTotal ≤ s.freeCount → exec .setQuota s = .next (u.withResult .done)) ∧
    (128 < u.reserveTotal ∨ s.freeCount < u.unmetTotal →
      exec .setQuota s = .next { s with host := { s.host with result := .noQuota, cmdRefused := true } })

/-! ### The commands of one line -/

/-- R70, R140: OPEN_LINE takes a CLOSED line to HOST with its receiver in WAIT_MARK, and establishes an ARMED record of the
line whose conditions then hold. That WAIT_MARK keeps the format with which it began is the model's reading (log entry 7). -/
def Obligations.open_line_attaches : Prop :=
  ∀ (s : State) (n : LineNo), s.Names n → (s.line n).state = .closed → ∃ t, exec .openLine s = .next (t.withResult .done) ∧
    (s.modLine n fun l => { l with state := .host, rx := .waitMark l.settings.format }).Evaluated t n

/-- R72: CLOSE_LINE takes a HOST line to CLOSED, discards both queues, disables the receiver, resets the hold working state and
the overrun-reported flag, and leaves the transmitter its item. That the RQ returns its cells to the free list before the TQ,
that a queue without a cell has head position 0, and that the discards evaluate no standing record, are the model's (log
entries 25, 29 and 30). -/
def Obligations.close_line_detaches : Prop :=
  ∀ (s : State) (n : LineNo), s.Names n → (s.line n).state = .host → exec .closeLine s = .next
    (((s.withFree (s.freeList ++ (s.line n).rq.chain ++ (s.line n).tq.chain)).modLine n fun l => { l with
      state := .closed, rx := .disabled, inputHeld := false, announced := .running, receivedPause := false, overrun := false
      rq := l.rq.emptied, tq := l.tq.emptied }).withResult .done)

/-- R74: QUERY_LINE loads P0 to P7 and changes nothing else. -/
def Obligations.query_line_reports : Prop :=
  ∀ (s : State) (n : LineNo), s.Names n → ∃ flags : Byte,
    exec .queryLine s = .next { s with host := { s.host with
      result := .done
      params := #v[
        (match (s.line n).state with
          | .closed => 0x00 | .host => 0x01 | .calling => 0x02 | .offered => 0x03 | .bridged => 0x04 | .draining => 0x05),
        (match (s.line n).conn with | some c => lineByte c.peer | none => 0xFF),
        BitVec.ofNat 8 (s.line n).rq.entries.length, BitVec.ofNat 8 ((s.line n).rq.entries.length / 256),
        BitVec.ofNat 8 (s.line n).tq.entries.length, BitVec.ofNat 8 ((s.line n).tq.entries.length / 256),
        flags,
        (match (s.line n).monitor.state with
          | .off => 0x00 | .settling => 0x01 | .ready => 0x02 | .counting => 0x03 | .confirming => 0x04)] } } ∧
    flags.getLsbD 0 = (s.line n).inputHeld ∧
    flags.getLsbD 1 = (match (s.line n).hold.method with
      | .none => false | .lines => (s.line n).hldi | .inband => (s.line n).receivedPause) ∧
    flags.getLsbD 2 = (s.line n).ready ∧
    flags.getLsbD 3 = ((s.line n).state == .offered || (s.line n).state == .bridged) ∧
    flags.getLsbD 4 = ((s.line n).hold.method == .lines && (s.line n).inputHeld) ∧
    flags.getLsbD 5 = (s.line n).overrun ∧ flags.getLsbD 6 = false ∧ flags.getLsbD 7 = false

/-- R16, R17, R116: SET_FORMAT and SET_TIMING store their settings on a CLOSED or HOST line and change nothing else, but that a
receiver in IDLE notes the format replaced, which is the model's (log entry 6). SET_PART stores the drain limit, and a limit of 0
is refused with BAD_VALUE; no running drain timer changes. -/
def Obligations.settings_are_stored : Prop :=
  (∀ (s : State) (n : LineNo), s.Names n → (s.line n).state = .closed ∨ (s.line n).state = .host →
    (∀ (d : DataBits) (p : Parity) (b : StopBits) (r : Fin 12) (o : Bool),
      s.param 1 = (match d with | .seven => 7 | .eight => 8) →
      s.param 2 = (match p with | .none => 0 | .even => 1 | .odd => 2) →
      s.param 3 = (match b with | .one => 1 | .two => 2) → s.param 4 = BitVec.ofNat 8 r.val →
      s.param 5 = (if o then 1 else 0) →
      exec .setFormat s = .next ((s.modLine n fun l => { l with
        settings := { l.settings with
          format := { dataBits := d, parity := p, stopBits := b, rate := r }, openAtStart := o }
        rx := match l.rx with
          | .idle earlier => .idle (l.settings.format :: earlier)
          | rx => rx }).withResult .done)) ∧
    (1 ≤ (s.param 1).toNat → 1 ≤ (s.param 3).toNat → (s.param 3).toNat ≤ 25 →
      exec .setTiming s = .next ((s.modLine n fun l => { l with settings := { l.settings with
        rxThreshold := s.param 1, txThreshold := s.param 2, breakLength := s.param 3
        readyGrace := s.param 4 } }).withResult .done))) ∧
  ∀ s : State, s.Takes →
    (s.param 0 ≠ 0 → exec .setPart s = .next { s with drainLimit := s.param 0, host := { s.host with result := .done } }) ∧
    (s.param 0 = 0 →
      exec .setPart s = .next { s with host := { s.host with result := .badValue, cmdRefused := true } })

/-- R53, R54: SET_FLOW stores the five hold settings on a CLOSED or HOST line, takes input-held anew from the RQ, and on a
changed method sets announced to RUNNING and clears the received-pause flag; an idle transmitter then begins a pending code, or
the oldest TQ entry if the line is no longer output-held. The head position 0 of a queue without a cell is the model's (log
entry 30). -/
def Obligations.set_flow_stores_and_realigns : Prop :=
  ∀ (s : State) (n : LineNo) (m : Method), s.Names n → (s.line n).state = .closed ∨ (s.line n).state = .host →
    s.param 1 = (match m with | .none => 0 | .lines => 1 | .inband => 2) → s.param 2 ≠ s.param 3 →
    2 ≤ (s.param 4).toNat → (s.param 4).toNat ≤ 128 → (s.param 5).toNat + 2 ≤ (s.param 4).toNat →
    ∃ t, exec .setFlow s = .next (t.withResult .done) ∧
    (s.modLine n fun l => { l with
      hold := { method := m, pauseCode := s.param 2, resumeCode := s.param 3, highMark := s.param 4, lowMark := s.param 5 }
      inputHeld :=
        if 8 * (s.param 4).toNat ≤ l.rq.entries.length then true
        else if l.rq.entries.length ≤ 8 * (s.param 5).toNat then false
        else l.inputHeld
      announced := if l.hold.method = m then l.announced else .running
      receivedPause := if l.hold.method = m then l.receivedPause else false }).Begins t n

/-- R28, R140, R172: FLUSH of the RQ in any open state, and of the TQ of a HOST line, after which an ARMED record of the line
whose conditions then hold is established; input-held of the line whose destination is discarded becomes false. That a FLUSH of
an empty queue is handed on too, and the head position 0 of a queue without a cell, are the model's (log entries 24 and 30). -/
def Obligations.flush_discards : Prop :=
  ∀ (s : State) (n : LineNo), s.Names n → ∀ u : State,
    u = ((s.withFree (s.freeList ++ (s.line n).rq.chain)).modLine n fun l =>
      if l.state = .bridged then { l with rq := l.rq.emptied } else { l with rq := l.rq.emptied }.afterOccupancy 0) →
    (s.param 1 = 1 → (s.line n).state ≠ .closed → ((s.line n).state = .bridged → (s.line n).conn ≠ none) →
      exec .flush s = .next (u.withResult .done)) ∧
    ((s.line n).state ≠ .bridged → 1 ≤ (s.line n).hold.highMark.toNat → (u.line n).inputHeld = false) ∧
    ((s.line n).state = .host → (s.line n).conn = none →
      (s.param 1 = 2 → ∃ t, exec .flush s = .next (t.withResult .done) ∧
        ((s.withFree (s.freeList ++ (s.line n).tq.chain)).modLine n fun l => { l with tq := l.tq.emptied }).Evaluated t n) ∧
      (s.param 1 = 3 → ∃ t, exec .flush s = .next (t.withResult .done) ∧
        ((u.withFree (u.freeList ++ (s.line n).tq.chain)).modLine n fun l => { l with tq := l.tq.emptied }).Evaluated t n))

/-! ### Calls -/

/-- R78 to R82: a CONNECT that passes its checks offers the call if the called line's ready is absent, and if it is present bridges
both lines at acceptance and posts CONNECTED. -/
def Obligations.connect_offers_or_answers : Prop :=
  ∀ (s : State) (x y : LineNo) (c d : Connection), s.Names x → s.param 1 = lineByte y → x ≠ y →
    1 ≤ (s.param 2).toNat → (s.param 2).toNat ≤ 60 → (s.param 4).toNat ≤ 4 → (s.param 5).toNat ≤ 250 →
    (s.param 6).toNat < 8 → (s.line x).state = .host → (s.line y).state = .host → s.Unreserved x → s.Unreserved y →
    (s.line x).ready = true →
    c = { peer := y, role := .caller, origin := .ordered, escChar := s.param 3, escCount := s.param 4, guardTime := s.param 5
          monitorFlag := (s.param 6).getLsbD 0
          breakAction := if (s.param 6).getLsbD 2 then .release else .forward, idleLimit := s.param 7 } →
    d = { c with peer := x, role := .called, monitorFlag := (s.param 6).getLsbD 1 } →
    ((s.line y).ready = false → ∃ t, exec .connect s = .next (t.withResult .started) ∧
      t = (s.modLine x fun l =>
        { l with state := .calling, conn := some c, answerTimer := some ((s.param 2).toNat * 100 + 1) }).modLine y (fun l =>
          { l with state := .offered, conn := some d }) ∧
      t.call y = true ∧ t.call x = false) ∧
    ((s.line y).ready = true → exec .connect s = .next (State.withResult
      { ((s.modLine x fun l => { l.bridgedOn c (s.line y).tq.entries.length with
          answerTimer := none, idleTimer := idleTimerOf c.idleLimit }).modLine y fun l =>
            l.bridgedOn d (s.line x).tq.entries.length) with
        host := postRecord .connected (lineByte x) (lineByte y) 0x00 s.host } .started))

/-- R13, R82: the recognition of ready presence on an OFFERED line answers the call. -/
def Obligations.ready_answers_offered_call : Prop :=
  ∀ (s : State) (x y : LineNo) (c d : Connection), s.resetLow = false → x ≠ y →
    (s.line x).state = .calling → (s.line y).state = .offered → (s.line x).conn = some c → (s.line y).conn = some d →
    c.peer = y → d.peer = x → (s.line y).readyDue ≠ .none → (s.line y).rdySample = true →
    exec (.readyRecognition y) s = .next
      { ((s.modLine x fun l => { l.bridgedOn c (s.line y).tq.entries.length with
          answerTimer := none, idleTimer := idleTimerOf c.idleLimit }).modLine y fun l =>
            { l with ready := true, graceCount := 0, readyDue := .none }.bridgedOn d (s.line x).tq.entries.length) with
        host := postRecord .connected (lineByte x) (lineByte y) 0x00 s.host }

/-- R86 to R88, R140: a call in setup that ends without an answer returns both lines to HOST with their optional parts removed
and posts CALL_FAILED with the caller first: the answer timer's expiry, RELEASE of either line, and the caller's ready loss.
Each return may establish an ARMED record of its line. Which line is evaluated first is left open (log entry 12). -/
def Obligations.failed_call_returns_both_lines : Prop :=
  ∀ (s : State) (x y : LineNo) (c d : Connection), s.resetLow = false → x ≠ y →
    (s.line x).state = .calling → (s.line y).state = .offered → (s.line x).conn = some c → (s.line y).conn = some d →
    c.peer = y → c.role = .caller → d.peer = x → d.role = .called →
    ∀ u : Byte → State, u = (fun reason =>
      { ((s.modLine x fun l => { l with state := .host, conn := none, answerTimer := none }).modLine y fun l =>
          { l with state := .host, conn := none, answerTimer := none }) with
        host := postRecord .callFailed (lineByte x) (lineByte y) reason s.host }) →
    ((s.line x).answerTimer = some 0 →
      ∃ t, exec (.answerTimerExpiry x) s = .next t ∧ (u 0x01).EvaluatedBoth t x y) ∧
    (∀ n, n = x ∨ n = y → s.Names n →
      ∃ t, exec .release s = .next (t.withResult .done) ∧ (u 0x03).EvaluatedBoth t x y) ∧
    ((s.line x).readyDue ≠ .none → (s.line x).rdySample = false → ∃ t, exec (.readyRecognition x) s = .next t ∧
      ((u 0x02).modLine x fun l => { l with ready := false, graceCount := 0, readyDue := .none }).EvaluatedBoth t x y)

/-- R2, R59: an expiry is taken only when its timer has counted its ticks: otherwise nothing changes. That an expiry command
before its time does nothing is the model's (log entries 3 and 4). -/
def Obligations.early_expiry_changes_nothing : Prop :=
  ∀ (s : State) (n : LineNo), s.resetLow = false →
    ((s.line n).answerTimer ≠ some 0 → exec (.answerTimerExpiry n) s = .next s) ∧
    ((s.line n).idleTimer ≠ some 0 → exec (.idleTimerExpiry n) s = .next s) ∧
    ((s.line n).drainTimer ≠ some 0 → exec (.drainTimerExpiry n) s = .next s) ∧
    ((s.line n).monitor.silence ≠ some 0 → exec (.silenceTimerExpiry n) s = .next s) ∧
    ((s.line n).breakTimer ≠ some 0 → exec (.breakTimerExpiry n) s = .next s) ∧
    (s.port.pollTimer ≠ some 0 → exec .writePollExpiry s = .next s) ∧
    ((s.line n).readyDue = .none → exec (.readyRecognition n) s = .next s)

/-! ### Release and draining -/

/-- R103, R106, R144: each cause takes the release step for the connection of the line where it arose: RELEASE (HOST), a
confirmed escape and one detected at its last character without a guard (ESCAPE, whose held characters are discarded), a break
received under RELEASE (BREAK), a ready loss (READY_LOST) and the idle timer (IDLE). The step hands over what the monitors
hold, leaves both lines DRAINING, posts RELEASED, takes a standing record out of ACTIVE, and checks the drain of both lines.
That x's list is handed over before y's, that an idle transmitter begins only after a whole batch is judged, and the head
position 0 of a queue without a cell, are the model's (log entries 11, 13 and 30): R103 and R25 do not say so. -/
def Obligations.release_step_of_each_cause : Prop :=
  ∀ (s : State) (x y : LineNo) (c : Connection), s.resetLow = false → s.Bridged x y c →
    (s.Names x → ∃ t, exec .release s = .next (t.withResult .done) ∧ s.ReleasesTo t x y c 0x01) ∧
    ((s.line x).monitor.state = .confirming → (s.line x).monitor.silence = some 0 →
      ∃ t, exec (.silenceTimerExpiry x) s = .next t ∧
        (s.modLine x fun l => { l with monitor := { l.monitor with count := 0, holding := [] } }).ReleasesTo t x y c 0x02) ∧
    (∀ (fmt : Format) (data : Byte) (parity stop : Bool), (s.line x).rx = .frame fmt →
      (classify fmt data parity stop = { kind := .data, value := c.escChar } →
        (s.line x).NoCode { kind := .data, value := c.escChar } →
        (s.line x).monitor.state = .ready ∨ (s.line x).monitor.state = .counting →
        (s.line x).monitor.count + 1 = c.escCount.toNat → c.guardTime = 0 →
        ∃ t, exec (.frameComplete x data parity stop) s = .next t ∧
          (s.modLine x fun l => { l with rx := .idle [], monitor := { l.monitor with count := 0, holding := [] } }).ReleasesTo
            t x y c 0x02) ∧
      ((classify fmt data parity stop).kind = .brk → c.breakAction = .release →
        ((s.line x).monitor.state = .ready → (s.line x).monitor.holding = []) →
        ∃ t, exec (.frameComplete x data parity stop) s = .next t ∧
          (s.modLine x fun l => { l with rx := .breakWait fmt }).ReleasesTo t x y c 0x03)) ∧
    ((s.line x).readyDue ≠ .none → (s.line x).rdySample = false → ∃ t, exec (.readyRecognition x) s = .next t ∧
      (s.modLine x fun l => { l with ready := false, graceCount := 0, readyDue := .none }).ReleasesTo t x y c 0x04) ∧
    ((s.line x).idleTimer = some 0 → ∃ t, exec (.idleTimerExpiry x) s = .next t ∧ s.ReleasesTo t x y c 0x05)

/-- R103, steps 7 and 9, R113: RELEASE of an ordered connection with both TQs empty and both transmitters idle, where the line's
own RQ makes no code pending, returns both lines to HOST at once, and posts RELEASED, then DRAINED of the named line, then
DRAINED of its peer. -/
def Obligations.release_with_complete_drains : Prop :=
  ∀ (s : State) (x y : LineNo) (c : Connection), s.Names x → s.Bridged x y c → c.origin = .ordered →
    s.Unreserved x → s.Unreserved y → ∀ freed : Line → Line,
    freed = (fun l => (l.released s.drainLimit).afterOccupancy l.rq.entries.length) →
    (∀ n, n = x ∨ n = y → (s.line n).tq.entries = [] ∧ (s.line n).monitor.holding = [] ∧ (freed (s.line n)).tx = .idle) →
    exec .release s = .next (State.withResult
      { ((s.modLine x fun l => { freed l with state := .host, drainTimer := none }).modLine y fun l =>
          { freed l with state := .host, drainTimer := none }) with
        host := postRecord .drained (lineByte y) 0xFF 0 (postRecord .drained (lineByte x) 0xFF 0
          (postRecord .released (lineByte x) (lineByte y) 0x01 s.host)) } .done)

/-- R103, step 9, R144: a standing connection released by its idle timer with both drains complete and both lines ready is made
anew in the same step: RELEASED, DRAINED of each line and CONNECTED are posted in this order. -/
def Obligations.idle_release_renews_standing_connection : Prop :=
  ∀ (s : State) (x y : LineNo) (c : Connection) (i : SlotNo) (d : Contents), s.resetLow = false → s.Bridged x y c →
    c.origin = .standing i → s.record i = .active d → (x = d.lineA ∧ y = d.lineB) ∨ (x = d.lineB ∧ y = d.lineA) →
    (∀ j, j ≠ i → reserves (s.record j) x = false ∧ reserves (s.record j) y = false) → ∀ freed : Line → Line,
    freed = (fun l => (l.released s.drainLimit).afterOccupancy l.rq.entries.length) →
    (∀ n, n = x ∨ n = y → (s.line n).tq.entries = [] ∧ (s.line n).monitor.holding = [] ∧ (freed (s.line n)).tx = .idle ∧
      (s.line n).ready = true) →
    (s.line x).idleTimer = some 0 → exec (.idleTimerExpiry x) s = .next (State.withConnection
      { ((s.modLine x fun l => { freed l with state := .host, drainTimer := none }).modLine y fun l =>
          { freed l with state := .host, drainTimer := none }) with
        host := postRecord .drained (lineByte y) 0xFF 0 (postRecord .drained (lineByte x) 0xFF 0
          (postRecord .released (lineByte x) (lineByte y) 0x05 s.host)) } i d)

/-- R110 to R113, R140: the drain timer's expiry and RELEASE cut the drain of a DRAINING line: the rest of its TQ is discarded
into the tally, and the line returns to HOST with DRAINED at once if its transmitter is idle, which may establish an ARMED
record of the line, and waits for the transmitter otherwise. The head position 0 of a queue without a cell is the model's (log
entry 30). -/
def Obligations.drain_is_cut : Prop :=
  ∀ (s : State) (n : LineNo), s.resetLow = false → (s.line n).state = .draining → (s.line n).conn = none → ∀ u : State,
    u = ((s.withFree (s.freeList ++ (s.line n).tq.chain)).modLine n fun l => { l with
      drainTimer := none, tally := min 255 (l.tally + l.tq.entries.length), tq := l.tq.emptied }) →
    ((s.line n).tx ≠ .idle →
      ((s.line n).drainTimer = some 0 → exec (.drainTimerExpiry n) s = .next u) ∧
      (s.Names n → exec .release s = .next (u.withResult .done))) ∧
    ((s.line n).tx = .idle →
      ((s.line n).drainTimer = some 0 → ∃ t, exec (.drainTimerExpiry n) s = .next t ∧ (u.returned n).Evaluated t n) ∧
      (s.Names n → ∃ t, exec .release s = .next (t.withResult .done) ∧ (u.returned n).Evaluated t n))

/-! ### Received entries -/

/-- R6, R65, R67, R68: an entry received on a HOST, CALLING, OFFERED or DRAINING line joins the line's own RQ and clears the
overrun-reported flag; a refused entry is lost, and posts OVERRUN only if the flag was clear. That a receiver enters IDLE with
no earlier format noted is the model's (log entry 6). -/
def Obligations.received_entry_joins_own_queue : Prop :=
  ∀ (s : State) (n : LineNo) (fmt : Format) (data : Byte) (parity stop : Bool) (e : Entry), s.resetLow = false →
    (s.line n).rx = .frame fmt → e = classify fmt data parity stop →
    (s.line n).state = .host ∨ (s.line n).state = .calling ∨ (s.line n).state = .offered ∨ (s.line n).state = .draining →
    (s.line n).NoCode e → ∀ r : RxState, r = (if e.kind = .brk then .breakWait fmt else .idle []) →
    (s.Accepts (.rq n) → exec (.frameComplete n data parity stop) s =
      .next ((s.withFree ((s.line n).rq.freeAfter s.freeList)).modLine n fun l =>
        { l with rx := r, overrun := false, rq := l.rq.withEntry s.freeList e }.afterOccupancy (l.rq.entries.length + 1))) ∧
    (¬ s.Accepts (.rq n) → exec (.frameComplete n data parity stop) s =
      .next { (s.modLine n fun l => { l with rx := r, overrun := true }) with
        host := if (s.line n).overrun then s.host else postRecord .overrun (lineByte n) 0xFF 0x00 s.host })

/-- R4, R6: the frame sent for a value has one start bit, its data bits least significant first, a parity bit that makes the
marks even or odd as the parity says, and marking stop bits; its length is the character time. A completed frame whose stop
bit, carried data bits and parity bit, if any, are all spacing is one BREAK; any other frame with a spacing stop bit, one of
spacing data bits with a marking parity bit among them, and one with a wrong parity bit, makes an ERROR of the data bits as
sampled; every frame of R4 for a value makes DATA of that value cut to the line's data bits. That a data bit of 1 is marking is
the model's reading (log entry 23). -/
def Obligations.frames_sent_and_classified : Prop :=
  (∀ (fmt : Format) (v : Byte), ∃ p : List Bool,
    frameBits fmt v = [false] ++ (List.range (if fmt.dataBits = .seven then 7 else 8)).map (fun i => v.getLsbD i) ++ p ++
      List.replicate (if fmt.stopBits = .one then 1 else 2) true ∧
    (fmt.parity = .none ↔ p = []) ∧ p.length ≤ 1 ∧
    (fmt.parity = .even →
      (((List.range (if fmt.dataBits = .seven then 7 else 8)).map (fun i => v.getLsbD i) ++ p).count true) % 2 = 0) ∧
    (fmt.parity = .odd →
      (((List.range (if fmt.dataBits = .seven then 7 else 8)).map (fun i => v.getLsbD i) ++ p).count true) % 2 = 1) ∧
    (frameBits fmt v).length = characterBits fmt) ∧
  ∀ (fmt : Format) (v : Byte),
    (∀ p, (if fmt.dataBits = .seven then v &&& 0x7F else v) = 0x00 → fmt.parity = .none ∨ p = false →
      classify fmt v p false = { kind := .brk, value := 0x00 }) ∧
    (∀ p, (if fmt.dataBits = .seven then v &&& 0x7F else v) ≠ 0x00 ∨ fmt.parity ≠ .none ∧ p = true →
      classify fmt v p false = { kind := .error, value := if fmt.dataBits = .seven then v &&& 0x7F else v }) ∧
    (∀ p, parityBit fmt.parity (frameDataBits fmt.dataBits v) = some p ∨ fmt.parity = .none →
      classify fmt v p true = { kind := .data, value := if fmt.dataBits = .seven then v &&& 0x7F else v }) ∧
    (∀ p, parityBit fmt.parity (frameDataBits fmt.dataBits v) = some (!p) →
      classify fmt v p true = { kind := .error, value := if fmt.dataBits = .seven then v &&& 0x7F else v })

/-- R9, R50, R51: on an INBAND line a received DATA entry equal to the pause code sets the received-pause flag, one equal to
the resume code clears it and lets an idle transmitter begin, and both are consumed: no queue, no monitor, no idle timer and no
overrun flag sees them. The head position 0 of a queue without a cell is the model's (log entry 30). -/
def Obligations.flow_codes_are_consumed : Prop :=
  ∀ (s : State) (n : LineNo) (fmt : Format) (data : Byte) (parity : Bool) (v : Byte), s.resetLow = false →
    (s.line n).rx = .frame fmt → classify fmt data parity true = { kind := .data, value := v } →
    (s.line n).hold.method = .inband →
    (v = (s.line n).hold.pauseCode → exec (.frameComplete n data parity true) s =
      .next (s.modLine n fun l => { l with rx := .idle [], receivedPause := true })) ∧
    (v = (s.line n).hold.resumeCode → v ≠ (s.line n).hold.pauseCode → ∃ t,
      exec (.frameComplete n data parity true) s = .next t ∧
      (s.modLine n fun l => { l with rx := .idle [], receivedPause := false }).Begins t n)

/-! ### Bridged traffic and escape monitors -/

/-- R66 to R69, R95 to R99, R121, R123: an entry received on either line of a connection, a BREAK under FORWARD among them,
joins the peer's TQ, where an idle transmitter begins it, or is an overrun with info 01h if the append is refused; it restarts
the connection's idle timer in the caller's record, and the line's Hold Logic takes the peer's TQ. A monitor that is SETTLING
restarts its silence timer, and a READY one that meets no escape character settles. The head position 0 of a queue without a
cell is the model's (log entry 30). -/
def Obligations.bridged_entry_joins_peer_queue : Prop :=
  ∀ (s : State) (x y : LineNo) (c : Connection) (fmt : Format) (data : Byte) (parity stop : Bool) (e : Entry),
    s.resetLow = false → s.Bridged x y c → (s.line x).rx = .frame fmt → e = classify fmt data parity stop →
    (e.kind = .brk → c.breakAction = .forward) → (s.line x).NoCode e →
    ((s.line x).monitor.state = .off →
      exec (.frameComplete x data parity stop) s = .next ((s.heard x c fmt e).passedOn x y e)) ∧
    ((s.line x).monitor.state = .settling → exec (.frameComplete x data parity stop) s =
      .next (((s.heard x c fmt e).modLine x fun l => { l with monitor := { l.monitor with
        silence := if c.guardTime = 0 then none else some (c.guardTime.toNat + 1) } }).passedOn x y e)) ∧
    ((s.line x).monitor.state = .ready → e ≠ { kind := .data, value := c.escChar } →
      exec (.frameComplete x data parity stop) s =
        .next (((s.heard x c fmt e).modLine x fun l => { l with monitor := unmatched c.guardTime }).passedOn x y e))

/-- R122 to R124, R126: an escape character received in READY or COUNTING on either line is held, not appended: the count grows,
and the monitor goes on to COUNTING below n and to CONFIRMING at n with a guard. The silence timer's expiry in SETTLING makes
the monitor READY. -/
def Obligations.escape_characters_are_held : Prop :=
  (∀ (s : State) (n : LineNo), s.resetLow = false → (s.line n).monitor.state = .settling →
    (s.line n).monitor.silence = some 0 → exec (.silenceTimerExpiry n) s = .next (s.modLine n fun l =>
      { l with monitor := { l.monitor with state := .ready, silence := none } })) ∧
  ∀ (s : State) (x y : LineNo) (c : Connection) (fmt : Format) (data : Byte) (parity : Bool) (e : Entry),
    s.resetLow = false → s.Bridged x y c → (s.line x).rx = .frame fmt → e = { kind := .data, value := c.escChar } →
    classify fmt data parity true = e → (s.line x).NoCode e →
    (s.line x).monitor.state = .ready ∨ (s.line x).monitor.state = .counting →
    (s.line x).monitor.count + 1 < c.escCount.toNat ∨ (s.line x).monitor.count + 1 = c.escCount.toNat ∧ c.guardTime ≠ 0 →
    exec (.frameComplete x data parity true) s = .next ((s.heard x c fmt e).modLine x fun l =>
      { l with monitor := { state := if l.monitor.count + 1 = c.escCount.toNat then .confirming else .counting
                            count := l.monitor.count + 1
                            silence := if c.guardTime = 0 then none else some (c.guardTime.toNat + 1)
                            holding := l.monitor.holding ++ [e] } })

/-- R25, R69, R124, R125, R127: a match that fails hands its holding list, in order, to the peer's TQ ahead of the entry that
made it fail. In COUNTING any entry but the escape character does so, in CONFIRMING every entry, and the monitor settles; on
the silence timer's expiry in COUNTING it goes to READY. A list that the store refuses in part stores its first entries and
reports one overrun. That an idle transmitter of an empty TQ begins only after the whole batch is judged, of which R25 does not
speak, and the head position 0 of a queue without a cell, are the model's (log entries 13 and 30). -/
def Obligations.failed_match_forwards_held_entries : Prop :=
  ∀ (s : State) (x y : LineNo) (c : Connection), s.resetLow = false → s.Bridged x y c →
    (∀ (fmt : Format) (data : Byte) (parity stop : Bool) (e : Entry), (s.line x).rx = .frame fmt →
      e = classify fmt data parity stop → (e.kind = .brk → c.breakAction = .forward) → (s.line x).NoCode e →
      (s.line x).monitor.state = .confirming ∨
        (s.line x).monitor.state = .counting ∧ e ≠ { kind := .data, value := c.escChar } →
      exec (.frameComplete x data parity stop) s = .next ((((s.heard x c fmt e).handedOver x y).modLine x fun l =>
        { l with monitor := unmatched c.guardTime }).passedOn x y e)) ∧
    ((s.line x).monitor.state = .counting → (s.line x).monitor.silence = some 0 → ∃ t,
      exec (.silenceTimerExpiry x) s = .next t ∧
      t = (s.handedOver x y).modLine x (fun l =>
        { l with monitor := { state := .ready, count := 0, silence := none, holding := [] } }) ∧
      ((s.line y).tx ≠ .idle → (s.line x).monitor.holding ≠ [] →
        ((s.line x).monitor.holding.length ≤ (s.line y).tq.tailRoom →
          (t.line y).tq = { (s.line y).tq with entries := (s.line y).tq.entries ++ (s.line x).monitor.holding } ∧
          (t.line x).overrun = false ∧ t.freeList = s.freeList ∧ t.host = s.host) ∧
        (∀ k, k = (s.line y).tq.tailRoom → k < (s.line x).monitor.holding.length → s.grantable (.tq y) = false →
          (t.line y).tq =
            { (s.line y).tq with entries := (s.line y).tq.entries ++ (s.line x).monitor.holding.take k } ∧
          (t.line x).overrun = true ∧ t.freeList = s.freeList ∧
          t.host = (if k = 0 ∧ (s.line x).overrun = true then s.host
            else postRecord .overrun (lineByte x) 0xFF 0x01 s.host))))

/-! ### The Standing List -/

/-- R135, R137: STANDING_PUT writes an EMPTY or IDLE record, STANDING_DISARM takes an ARMED one back to IDLE with its contents,
STANDING_DROP empties an IDLE or ARMED one, STANDING_ARM leaves an ARMED one as it is, and no line changes; each refuses the
states that its rule names: STANDING_PUT an ARMED or ACTIVE record, and the others an ACTIVE one. -/
def Obligations.standing_put_disarm_drop : Prop :=
  ∀ (s : State) (i : SlotNo) (c : Contents), s.NamesSlot i → ∀ u,
    u = (fun (r : StandingRecord) => (s.setRecord i r).withResult .done) →
    (∀ a b : LineNo, s.param 1 = lineByte a → s.param 2 = lineByte b → a ≠ b → (s.param 4).toNat ≤ 4 →
      (s.param 5).toNat ≤ 250 → (s.param 6).toNat < 16 →
      (s.record i = .empty ∨ s.record i = .idle c → exec .standingPut s = .next (u (.idle {
        lineA := a, lineB := b, escChar := s.param 3, escCount := s.param 4, guardTime := s.param 5
        monitorA := (s.param 6).getLsbD 0, monitorB := (s.param 6).getLsbD 1
        breakAction := if (s.param 6).getLsbD 2 then .release else .forward, idleLimit := s.param 7
        armAtStart := (s.param 6).getLsbD 3 }))) ∧
      (s.record i = .armed c ∨ s.record i = .active c →
        exec .standingPut s = .next { s with host := { s.host with result := .wrongState, cmdRefused := true } })) ∧
    (s.record i = .armed c → exec .standingDisarm s = .next (u (.idle c)) ∧ exec .standingDrop s = .next (u .empty) ∧
      exec .standingArm s = .next (s.withResult .done)) ∧
    (s.record i = .idle c →
      exec .standingDisarm s = .next (s.withResult .done) ∧ exec .standingDrop s = .next (u .empty)) ∧
    (s.record i = .empty → exec .standingDrop s = .next (s.withResult .done) ∧ ∀ cmd ∈ [Instr.standingDisarm, .standingArm],
      exec cmd s = .next { s with host := { s.host with result := .wrongState, cmdRefused := true } }) ∧
    (s.record i = .active c → ∀ cmd ∈ [Instr.standingDisarm, .standingDrop, .standingArm],
      exec cmd s = .next { s with host := { s.host with result := .wrongState, cmdRefused := true } })

/-- R136, R140, R141: STANDING_ARM arms an IDLE record whose lines no other record reserves. It stays ARMED while a condition of
establishment fails; if all hold its connection is made in the same step: lines a and b BRIDGED, line a as CALLER, the record
ACTIVE, and CONNECTED with the slot posted. A reserved line is refused with RESERVED_LINE. -/
def Obligations.standing_arm_arms_or_establishes : Prop :=
  ∀ (s : State) (i : SlotNo) (c : Contents), s.NamesSlot i → s.record i = .idle c →
    ((∀ j, j ≠ i → reserves (s.record j) c.lineA = false ∧ reserves (s.record j) c.lineB = false) →
      ((∃ n, (n = c.lineA ∨ n = c.lineB) ∧
          ((s.line n).state ≠ .host ∨ (s.line n).tq.entries ≠ [] ∨ (s.line n).ready = false)) →
        exec .standingArm s = .next ((s.setRecord i (.armed c)).withResult .done)) ∧
      (c.lineA ≠ c.lineB →
        (∀ n, n = c.lineA ∨ n = c.lineB →
          (s.line n).state = .host ∧ (s.line n).tq.entries = [] ∧ (s.line n).ready = true) → ∀ p : Connection,
        p = { peer := c.lineB, role := .caller, origin := .standing i, escChar := c.escChar, escCount := c.escCount
              guardTime := c.guardTime, monitorFlag := c.monitorA, breakAction := c.breakAction, idleLimit := c.idleLimit } →
        exec .standingArm s = .next (State.withResult
          { (((s.modLine c.lineA fun l => { l.bridgedOn p 0 with idleTimer := idleTimerOf c.idleLimit }).modLine c.lineB fun l =>
              l.bridgedOn { p with peer := c.lineA, role := .called, monitorFlag := c.monitorB } 0).setRecord i (.active c)) with
            host := postRecord .connected (lineByte c.lineA) (lineByte c.lineB) (0x80 ||| BitVec.ofNat 8 i.val) s.host }
          .done))) ∧
    ((∃ j, j ≠ i ∧ (reserves (s.record j) c.lineA = true ∨ reserves (s.record j) c.lineB = true)) →
      exec .standingArm s = .next { s with host := { s.host with result := .reservedLine, cmdRefused := true } })

/-- R138: QUERY_STANDING loads P0 to P7 with the record and changes nothing else. -/
def Obligations.query_standing_reports : Prop :=
  ∀ (s : State) (i : SlotNo), s.NamesSlot i → ∃ v : Vector Byte 8,
    exec .queryStanding s = .next { s with host := { s.host with result := .done, params := v } } ∧
    (s.record i = .empty → v = #v[0x00, 0xFF, 0xFF, 0x00, 0x00, 0x00, 0x00, 0x00]) ∧
    (∀ c, s.record i = .idle c ∨ s.record i = .armed c ∨ s.record i = .active c →
      v.get 0 = (match s.record i with | .empty => 0x00 | .idle _ => 0x01 | .armed _ => 0x02 | .active _ => 0x03) ∧
      v.get 1 = lineByte c.lineA ∧ v.get 2 = lineByte c.lineB ∧ v.get 3 = c.escChar ∧ v.get 4 = c.escCount ∧
      v.get 5 = c.guardTime ∧ (v.get 6).getLsbD 0 = c.monitorA ∧ (v.get 6).getLsbD 1 = c.monitorB ∧
      (v.get 6).getLsbD 2 = (c.breakAction == .release) ∧ (v.get 6).getLsbD 3 = c.armAtStart ∧
      (v.get 6).toNat < 16 ∧ v.get 7 = c.idleLimit)

/-! ### The Memory Port -/

/-- R149, R158 to R161: RELOAD with every line CLOSED begins a load, SAVE takes the snapshot and begins write 1, and a busy port
refuses both; a completed write goes to the memory and starts the polls, an acknowledged poll begins the next write or ends the
save with OK after write 36, a refused byte and an unacknowledged poll end it. The record of what the memory holds, and the count
of writes made returning to 0 at the end of a save, are the model's (log entries 14 and 16). -/
def Obligations.reload_and_save_steps : Prop :=
  ∀ s : State, s.resetLow = false → ∀ finished : Byte → State,
    finished = (fun outcome => { s with
      port := { s.port with state := .idle, bus := .quiet, snapshot := [], writesMade := 0, pollTimer := none }
      host := postRecord .saveDone 0xFF 0xFF outcome s.host }) →
    (s.port.state = .idle →
      ((∀ n, (s.line n).state = .closed) → exec .reload s =
        .next ({ s with port := { s.port with state := .loading, bus := .reading } }.withResult .started)) ∧
      ((∃ n, (s.line n).state ≠ .closed) →
        exec .reload s = .next { s with host := { s.host with result := .wrongState, cmdRefused := true } }) ∧
      exec .save s = .next ({ s with port := { s.port with
        state := .saving, bus := .writing, snapshot := saveImage s, writesMade := 0, pollTimer := none } }.withResult
          .started)) ∧
    (s.port.state = .saving → ∀ c ∈ [Instr.reload, .save],
      exec c s = .next { s with host := { s.host with result := .memoryBusy, cmdRefused := true } }) ∧
    (s.port.state = .saving → s.port.bus = .writing →
      exec .saveWriteComplete s = .next { s with
        memory := memoryWriteAll s.memory (saveWrite s.port.snapshot (s.port.writesMade + 1)).1
          (saveWrite s.port.snapshot (s.port.writesMade + 1)).2
        port := { s.port with writesMade := s.port.writesMade + 1, bus := .polling, pollTimer := some 3 } } ∧
      ∀ b, b < (saveWriteBytes s.port.snapshot (s.port.writesMade + 1)).length →
        exec (.saveByteNotAcknowledged b) s =
          .next (finished (if s.port.writesMade = 0 ∧ b = 0 then 0x01 else 0x02))) ∧
    (s.port.state = .saving → s.port.bus = .polling →
      (s.port.writesMade < 36 →
        exec .pollAcknowledged s = .next { s with port := { s.port with bus := .writing, pollTimer := none } }) ∧
      (s.port.writesMade = 36 → exec .pollAcknowledged s = .next (finished 0x00)) ∧
      (s.port.pollTimer = some 0 → exec .writePollExpiry s = .next (finished 0x02)))

/-- R149, R153, R159, R160: what the port drives on MSCL and MSDA in each state of the bus: bus recovery and the image read,
with each byte but the last acknowledged; a write of the save, behind bus recovery if it is the first; the polls; and nothing
at rest and while RESET# is low. A byte goes out most significant bit first, and its ninth period is the receiver's
acknowledge. R149 gives a poll no memory address: that its device select byte carries the address bit 8 of the write just
completed is the model's (log entry 31). -/
def Obligations.memory_bus_transfers : Prop :=
  (∀ s : State, s.resetLow = true ∨ s.port.bus = .quiet → s.memoryBus = []) ∧
  (∀ s : State, s.resetLow = false →
    (s.port.bus = .reading → s.memoryBus =
      [.releaseData, .clockPulses 9, .stopCondition,
        .startCondition, .send 0xA0, .send 0x00, .startCondition, .send 0xA1] ++
      List.replicate 271 (.receive true) ++ [.receive false, .stopCondition]) ∧
    ∀ (address : Nat) (data : List Byte) (select : Byte), select = (if address < 256 then 0xA0 else 0xA2) →
      (s.port.bus = .writing →
        (address, data) = (if s.port.writesMade = 0 then (0x003, [0x00]) else if s.port.writesMade = 35 then (0x003, [0xA5])
          else (8 * (s.port.writesMade - 1), (s.port.snapshot.drop (8 * (s.port.writesMade - 1))).take 8)) →
        s.memoryBus = (if s.port.writesMade = 0 then [.releaseData, .clockPulses 9, .stopCondition] else []) ++
          [.startCondition, .send select, .send (BitVec.ofNat 8 address)] ++ data.map BusAction.send ++ [.stopCondition]) ∧
      (s.port.bus = .polling → 1 ≤ s.port.writesMade →
        address = (if s.port.writesMade = 1 ∨ s.port.writesMade = 36 then 0x003 else 8 * (s.port.writesMade - 2)) →
        s.memoryBus = [.startCondition, .send select, .stopCondition])) ∧
  ∀ b : Byte, (BusAction.send b).periods = (List.range 8).map (fun i => .portBit (b.getLsbD (7 - i))) ++
      [.acknowledge .memory none] ∧
    byteOfBits ((List.range 8).map fun i => b.getLsbD (7 - i)) = b ∧
    ∀ low, (BusAction.receive low).periods = List.replicate 8 .memoryBit ++ [.acknowledge .port (some low)]

/-- R160, R162: the 36 writes of a save leave the snapshot in the memory with A5h at 003h and touch nothing else, and after each of
the writes 1 to 35 the marker is blank. The record of what the memory holds is the model's (log entry 14). -/
def Obligations.save_writes_the_image : Prop :=
  ∀ (snapshot : List Byte) (m : List Host.Cell) (after : Nat → List Host.Cell), snapshot.length = 272 →
    snapshot[3]? = some 0x00 → after 0 = m →
    (∀ k, after (k + 1) = memoryWriteAll (after k) (saveWrite snapshot (k + 1)).1 (saveWrite snapshot (k + 1)).2) →
    (∀ a, memoryRead (after 36) a =
      if a = 3 then some 0xA5 else if a < 272 then snapshot[a]? else memoryRead m a) ∧
    (∀ k, 1 ≤ k → k < 36 → memoryRead (after k) 3 = some 0x00)

/-- R151: an image of 272 bytes is whole, neither BLANK nor BAD_CHECKSUM, exactly when its marker, signature, version and sum
are right; one with the marker 00h is BLANK whatever the rest holds; and the part's own snapshot sums to 00h. -/
def Obligations.image_is_whole : Prop :=
  (∀ img : List Byte, img.length = 272 →
    (judgeImage img ≠ .error (.blank, 0xFF) ∧ judgeImage img ≠ .error (.badChecksum, 0xFF) ↔
      img[0x003]? = some 0xA5 ∧ (img[0x000]? = some 0x53 ∧ img[0x001]? = some 0x58) ∧ img[0x002]? = some 0x01 ∧
        ((img.take 0x003 ++ img.drop 0x004).map (·.toNat)).sum % 256 = 0) ∧
    (img[0x003]? = some 0x00 → judgeImage img = .error (.blank, 0xFF))) ∧
  ∀ s : State, (saveImage s).length = 272 ∧ (saveImage s)[0x003]? = some 0x00 ∧
    ((saveImage s).map (·.toNat)).sum % 256 = 0

/-- R150, R151, R152, R159: the image that SAVE takes from a part within its laws, with the marker A5h, is judged OK, and every
setting, quota and standing record comes back as R159 says it is saved. -/
def Obligations.saved_image_loads_back : Prop :=
  ∀ s : State, s.SettingsLaw → s.QuotaLaw →
    (∀ i j n, reserves (s.record i) n = true → reserves (s.record j) n = true → i = j) →
    judgeImage ((saveImage s).set 3 0xA5) = .ok {
      drainLimit := s.drainLimit
      lines := allLines.map fun n =>
        { settings := (s.line n).settings, hold := (s.line n).hold, rqReserve := (s.line n).rq.reserve
          rqLimit := (s.line n).rq.limit, tqReserve := (s.line n).tq.reserve, tqLimit := (s.line n).tq.limit }
      records := allSlots.map fun i => match s.record i with
        | .empty => .empty
        | .idle c => .idle { c with armAtStart := false }
        | .armed c => if c.armAtStart then .armed c else .idle c
        | .active c => if c.armAtStart then .armed c else .idle c }

/-- R154, R156, R162: a load that does not end OK leaves factory settings, a drain limit of 50, every record EMPTY and the port
IDLE, and posts LOAD_DONE with its outcome and index. The image judged is what the memory then holds, so a save cut before its
last write is read back as BLANK. That the bytes the part has not written come with the command, that the load buffer stays as it
was filled, and that the received-pause flag clears, are the model's (log entries 14, 16 and 27); an image of another length than
272 is left to log entry 17. -/
def Obligations.failed_load_leaves_factory_settings : Prop :=
  ∀ s : State, s.resetLow = false → s.port.state = .loading →
    ∀ (how : ReadEnd) (outcome index : Byte) (buffer : List Byte),
    (∃ k, how = .notAcknowledged k ∧ outcome = 0x01 ∧ index = 0xFF ∧ buffer = s.port.loadBuffer) ∨
      (∃ before, how = .finished before ∧ before.length = 272 ∧ buffer.length = 272 ∧
        (∀ a, a < 272 → buffer[a]? = (memoryRead s.memory a).or before[a]?) ∧
        ((memoryRead s.memory 3 = some 0x00 ∧ outcome = 0x02 ∧ index = 0xFF) ∨
          ∃ o, judgeImage buffer = .error (o, index) ∧
            outcome = match o with
              | .ok => 0x00 | .noMemory => 0x01 | .blank => 0x02 | .badChecksum => 0x03 | .badRecord => 0x04)) →
    exec (.imageReadDone how) s = .next { s with
      lines := Vector.ofFn fun n => { s.line n with
        settings := { format := { dataBits := .eight, parity := .none, stopBits := .one, rate := 6 }, openAtStart := false
                      rxThreshold := 1, txThreshold := 0, breakLength := 25, readyGrace := 10 }
        hold := { method := .none, pauseCode := 0x13, resumeCode := 0x11, highMark := 24, lowMark := 8 }
        receivedPause := false
        rq := { (s.line n).rq with reserve := 2, limit := 16 }, tq := { (s.line n).tq with reserve := 2, limit := 16 } }
      drainLimit := 50, standing := Vector.replicate 4 .empty
      port := { s.port with state := .idle, bus := .quiet, loadBuffer := buffer }
      host := postRecord .loadDone 0xFF index outcome s.host }

/-- R154, R155, R162: a good image is installed in one step: settings, hold settings, quotas, drain limit and records, LOAD_DONE
OK, and then the lines with open-at-start opened in ascending order, each opening establishing an ARMED record of the line whose
conditions then hold. The image judged is what the memory then holds. That the bytes the part has not written come with the
command and that the load buffer stays as it was filled are the model's (log entries 14 and 16); an image of another length than
272 is left to log entry 17. -/
def Obligations.good_image_is_installed : Prop :=
  ∀ (s : State) (before loaded : List Byte) (g : GoodImage), s.resetLow = false → s.port.state = .loading →
    (∀ n, (s.line n).state = .closed) → before.length = 272 → loaded.length = 272 →
    (∀ a, a < 272 → loaded[a]? = (memoryRead s.memory a).or before[a]?) → judgeImage loaded = .ok g →
    ∃ (f : Nat → State) (t : State), exec (.imageReadDone (.finished before)) s = .next t ∧
      f 0 = { s with
        lines := Vector.ofFn fun n => { s.line n with
          settings := (g.line n).settings, hold := (g.line n).hold, receivedPause := false
          rq := { (s.line n).rq with reserve := (g.line n).rqReserve, limit := (g.line n).rqLimit }
          tq := { (s.line n).tq with reserve := (g.line n).tqReserve, limit := (g.line n).tqLimit } }
        drainLimit := g.drainLimit, standing := Vector.ofFn g.record
        port := { s.port with state := .idle, bus := .quiet, loadBuffer := loaded }
        host := postRecord .loadDone 0xFF 0xFF 0x00 s.host } ∧
      (∀ n : LineNo, if (g.line n).settings.openAtStart = true then
          ((f n.val).modLine n fun l => { l with state := .host, rx := .waitMark l.settings.format }).Evaluated
            (f (n.val + 1)) n
        else f (n.val + 1) = f n.val) ∧
      t = f 8

/-! ### The Line Ports -/

/-- R5, R7, R11, R12: a start bit confirmed in IDLE enters FRAME with the format in force at its start edge, k SET_FORMATs ago,
a false start stays in IDLE, and sixteen marking samples end WAIT_MARK and BREAK; the break timer ends a sent break's spacing
with a marking tail in the format in force when the break began. That START_BIT carries the count k, and that a wait keeps the
format with which it began, are the model's (log entries 6 and 7). -/
def Obligations.line_port_states : Prop :=
  ∀ (s : State) (n : LineNo), s.resetLow = false →
    (∀ earlier k fmt, (s.line n).rx = .idle earlier → ((s.line n).settings.format :: earlier)[k]? = some fmt →
      exec (.startBit n { changes := k, level := false }) s = .next (s.modLine n fun l => { l with rx := .frame fmt }) ∧
      exec (.startBit n { changes := k, level := true }) s = .next (s.modLine n fun l => { l with rx := .idle [] })) ∧
    (∀ fmt, (s.line n).rx = .waitMark fmt →
      exec (.markWaitDone n) s = .next (s.modLine n fun l => { l with rx := .idle [] })) ∧
    (∀ fmt, (s.line n).rx = .breakWait fmt →
      exec (.breakEnd n) s = .next (s.modLine n fun l => { l with rx := .idle [] })) ∧
    (∀ fmt, (s.line n).tx = .breakSpacing fmt → (s.line n).breakTimer = some 0 → exec (.breakTimerExpiry n) s =
      .next (s.modLine n fun l => { l with tx := .breakTail fmt, breakTimer := none }))

/-- R9 to R12, R26, R27, R30, R48, R110, R113, R140: what a transmitter does when its item is finished, in every state of the
line: a pending flow code first, then the oldest TQ entry unless output-held, of which a peer's Hold Logic and an ARMED record
of the line are told, otherwise idle; a DRAINING line with nothing left returns to HOST. The head position 0 of a queue without
a cell is the model's (log entry 30). -/
def Obligations.item_finished_begins_next : Prop :=
  ∀ (s : State) (n : LineNo), s.resetLow = false → (s.line n).tx ≠ .idle → (s.line n).tx.isSpacing = false →
    ((s.line n).codePending = true → exec (.itemFinished n) s = .next (s.modLine n fun l =>
      { l with tx := .flow (if l.inputHeld then l.hold.pauseCode else l.hold.resumeCode) l.settings.format
               announced := if l.inputHeld then .paused else .running })) ∧
    ((s.line n).codePending = false →
      ((s.line n).outputHeld = true ∨ (s.line n).tq.entries = [] →
        ((s.line n).state ≠ .draining ∨ (s.line n).tq.entries ≠ [] →
          exec (.itemFinished n) s = .next (s.modLine n fun l => { l with tx := .idle })) ∧
        ((s.line n).state = .draining → (s.line n).tq.entries = [] → ∃ t, exec (.itemFinished n) s = .next t ∧
          ((s.modLine n fun l => { l with tx := .idle }).returned n).Evaluated t n)) ∧
      (∀ e rest, (s.line n).tq.entries = e :: rest → (s.line n).outputHeld = false → ∃ t,
        exec (.itemFinished n) s = .next t ∧ (s.begun n e).Evaluated t n))

/-- R9, R15, R50: HLDIn is taken at once; it holds the output of a LINES line, and its release lets an idle transmitter begin
the oldest TQ entry. The head position 0 of a queue without a cell is the model's (log entry 30). -/
def Obligations.hldi_holds_output : Prop :=
  ∀ (s : State) (n : LineNo), s.resetLow = false →
    (∀ level, ∃ t, exec (.hldiChange n level) s = .next t ∧ (s.modLine n fun l => { l with hldi := level }).Begins t n) ∧
    ((s.line n).hold.method = .lines →
      exec (.hldiChange n true) s = .next (s.modLine n fun l => { l with hldi := true }) ∧
      ((s.modLine n fun l => { l with hldi := true }).line n).outputHeld = true ∧
      ((s.line n).tx = .idle → (s.line n).tq.entries ≠ [] →
        ((s.modLine n fun l => { l with hldi := false }).line n).CanBegin))

/-- R1, R2, R13, R18: a tick counts every timer by one and samples RDY: a level equal to the recognised one zeroes the count,
another raises it, and a recognition is due from the ready grace plus one, at the first tick after a reset without grace. That
the tick is READY_SAMPLE and that the recognition is a command of its own is the model's (log entries 2 and 3). -/
def Obligations.tick_counts_and_samples : Prop :=
  ∀ (s : State) (levels : Byte), s.resetLow = false → ∀ f : Timer → Timer, f none = none → (∀ k, f (some k) = some (k - 1)) →
    ∃ t, exec (.readySample levels) s = .next t ∧
    (∀ n, ∃ count due, t.line n = { s.line n with
        answerTimer := f (s.line n).answerTimer, idleTimer := f (s.line n).idleTimer
        drainTimer := f (s.line n).drainTimer, breakTimer := f (s.line n).breakTimer
        monitor := { (s.line n).monitor with silence := f (s.line n).monitor.silence }
        rdySample := levels.getLsbD n.val, graceCount := count, readyDue := due } ∧
      (levels.getLsbD n.val = (s.line n).ready → count = 0 ∧ due = .none) ∧
      (levels.getLsbD n.val ≠ (s.line n).ready →
        (s.firstTick = true → count = 0 ∧ due = .first) ∧
        (s.firstTick = false → count = (s.line n).graceCount + 1 ∧
          (due = .counted ↔ (s.line n).settings.readyGrace.toNat + 1 ≤ count) ∧ due ≠ .first))) ∧
    t.firstTick = false ∧ t.port = { s.port with pollTimer := f s.port.pollTimer } ∧ t.freeList = s.freeList ∧
    t.host = s.host ∧ t.standing = s.standing ∧ t.drainLimit = s.drainLimit ∧ t.memory = s.memory ∧
    t.resetLow = false ∧ t.pending = s.pending

/-- R13, R14, R18, R140, R142: a recognised change takes the sampled level and zeroes the count; on a HOST line it posts READY_CHANGE
unless it is the first sample's after a reset, and presence then establishes an ARMED record of the line whose conditions hold,
with CONNECTED behind READY_CHANGE. On a CLOSED or DRAINING line, and where the level is the one the call or connection has
already, nothing else happens. -/
def Obligations.ready_change_is_reported : Prop :=
  ∀ (s : State) (n : LineNo), s.resetLow = false → (s.line n).readyDue ≠ .none → ∀ u,
    u = (s.modLine n fun l => { l with ready := l.rdySample, graceCount := 0, readyDue := .none }) →
    ((s.line n).state = .host → (s.line n).readyDue = .counted → ∃ t, exec (.readyRecognition n) s = .next t ∧
      ({ u with host := postRecord .readyChange (lineByte n) 0xFF (if (s.line n).rdySample then 0x01 else 0x00) s.host } :
        State).Evaluated t n) ∧
    ((s.line n).state = .host → (s.line n).readyDue = .first →
      ∃ t, exec (.readyRecognition n) s = .next t ∧ u.Evaluated t n) ∧
    ((s.line n).state = .closed ∨ (s.line n).state = .draining ∨
        (s.line n).rdySample = false ∧ (s.line n).state = .offered ∨
        (s.line n).rdySample = true ∧ ((s.line n).state = .calling ∨ (s.line n).state = .bridged) →
      exec (.readyRecognition n) s = .next u)
end

