-- ==== Sys2Proof/Laws/State.lean ====
section
/-! SUPPORT. What each named update leaves of each field of the state, and the reads after writes of lines, standing records,
queues and parameters. -/

namespace Sys2Proof.Machine

/-! `State.modLine` -/

@[simp] theorem State.modLine_freeList (s : State) (n : LineNo) (f : Line → Line) : (s.modLine n f).freeList = s.freeList := rfl
@[simp] theorem State.modLine_drainLimit (s : State) (n : LineNo) (f : Line → Line) : (s.modLine n f).drainLimit = s.drainLimit := rfl
@[simp] theorem State.modLine_standing (s : State) (n : LineNo) (f : Line → Line) : (s.modLine n f).standing = s.standing := rfl
@[simp] theorem State.modLine_port (s : State) (n : LineNo) (f : Line → Line) : (s.modLine n f).port = s.port := rfl
@[simp] theorem State.modLine_memory (s : State) (n : LineNo) (f : Line → Line) : (s.modLine n f).memory = s.memory := rfl
@[simp] theorem State.modLine_host (s : State) (n : LineNo) (f : Line → Line) : (s.modLine n f).host = s.host := rfl
@[simp] theorem State.modLine_resetLow (s : State) (n : LineNo) (f : Line → Line) : (s.modLine n f).resetLow = s.resetLow := rfl
@[simp] theorem State.modLine_firstTick (s : State) (n : LineNo) (f : Line → Line) : (s.modLine n f).firstTick = s.firstTick := rfl
@[simp] theorem State.modLine_pending (s : State) (n : LineNo) (f : Line → Line) : (s.modLine n f).pending = s.pending := rfl
@[simp] theorem State.modLine_record (s : State) (n : LineNo) (f : Line → Line) (j : SlotNo) : (s.modLine n f).record j = s.record j := rfl
@[simp] theorem State.modLine_param (s : State) (n : LineNo) (f : Line → Line) (j : Fin 8) : (s.modLine n f).param j = s.param j := rfl

/-! `State.modHost` -/

@[simp] theorem State.modHost_lines (s : State) (f : HostPort → HostPort) : (s.modHost f).lines = s.lines := rfl
@[simp] theorem State.modHost_freeList (s : State) (f : HostPort → HostPort) : (s.modHost f).freeList = s.freeList := rfl
@[simp] theorem State.modHost_drainLimit (s : State) (f : HostPort → HostPort) : (s.modHost f).drainLimit = s.drainLimit := rfl
@[simp] theorem State.modHost_standing (s : State) (f : HostPort → HostPort) : (s.modHost f).standing = s.standing := rfl
@[simp] theorem State.modHost_port (s : State) (f : HostPort → HostPort) : (s.modHost f).port = s.port := rfl
@[simp] theorem State.modHost_memory (s : State) (f : HostPort → HostPort) : (s.modHost f).memory = s.memory := rfl
@[simp] theorem State.modHost_resetLow (s : State) (f : HostPort → HostPort) : (s.modHost f).resetLow = s.resetLow := rfl
@[simp] theorem State.modHost_firstTick (s : State) (f : HostPort → HostPort) : (s.modHost f).firstTick = s.firstTick := rfl
@[simp] theorem State.modHost_pending (s : State) (f : HostPort → HostPort) : (s.modHost f).pending = s.pending := rfl
@[simp] theorem State.modHost_line (s : State) (f : HostPort → HostPort) (m : LineNo) : (s.modHost f).line m = s.line m := rfl
@[simp] theorem State.modHost_queue (s : State) (f : HostPort → HostPort) (q : QueueId) : (s.modHost f).queue q = s.queue q := by cases q <;> rfl
@[simp] theorem State.modHost_record (s : State) (f : HostPort → HostPort) (j : SlotNo) : (s.modHost f).record j = s.record j := rfl

/-! `State.modPort` -/

@[simp] theorem State.modPort_lines (s : State) (f : MemoryPort → MemoryPort) : (s.modPort f).lines = s.lines := rfl
@[simp] theorem State.modPort_freeList (s : State) (f : MemoryPort → MemoryPort) : (s.modPort f).freeList = s.freeList := rfl
@[simp] theorem State.modPort_drainLimit (s : State) (f : MemoryPort → MemoryPort) : (s.modPort f).drainLimit = s.drainLimit := rfl
@[simp] theorem State.modPort_standing (s : State) (f : MemoryPort → MemoryPort) : (s.modPort f).standing = s.standing := rfl
@[simp] theorem State.modPort_memory (s : State) (f : MemoryPort → MemoryPort) : (s.modPort f).memory = s.memory := rfl
@[simp] theorem State.modPort_host (s : State) (f : MemoryPort → MemoryPort) : (s.modPort f).host = s.host := rfl
@[simp] theorem State.modPort_resetLow (s : State) (f : MemoryPort → MemoryPort) : (s.modPort f).resetLow = s.resetLow := rfl
@[simp] theorem State.modPort_firstTick (s : State) (f : MemoryPort → MemoryPort) : (s.modPort f).firstTick = s.firstTick := rfl
@[simp] theorem State.modPort_pending (s : State) (f : MemoryPort → MemoryPort) : (s.modPort f).pending = s.pending := rfl
@[simp] theorem State.modPort_line (s : State) (f : MemoryPort → MemoryPort) (m : LineNo) : (s.modPort f).line m = s.line m := rfl
@[simp] theorem State.modPort_queue (s : State) (f : MemoryPort → MemoryPort) (q : QueueId) : (s.modPort f).queue q = s.queue q := by cases q <;> rfl
@[simp] theorem State.modPort_record (s : State) (f : MemoryPort → MemoryPort) (j : SlotNo) : (s.modPort f).record j = s.record j := rfl
@[simp] theorem State.modPort_param (s : State) (f : MemoryPort → MemoryPort) (j : Fin 8) : (s.modPort f).param j = s.param j := rfl

/-! `State.withFree` -/

@[simp] theorem State.withFree_lines (s : State) (free : List Nat) : (s.withFree free).lines = s.lines := rfl
@[simp] theorem State.withFree_drainLimit (s : State) (free : List Nat) : (s.withFree free).drainLimit = s.drainLimit := rfl
@[simp] theorem State.withFree_standing (s : State) (free : List Nat) : (s.withFree free).standing = s.standing := rfl
@[simp] theorem State.withFree_port (s : State) (free : List Nat) : (s.withFree free).port = s.port := rfl
@[simp] theorem State.withFree_memory (s : State) (free : List Nat) : (s.withFree free).memory = s.memory := rfl
@[simp] theorem State.withFree_host (s : State) (free : List Nat) : (s.withFree free).host = s.host := rfl
@[simp] theorem State.withFree_resetLow (s : State) (free : List Nat) : (s.withFree free).resetLow = s.resetLow := rfl
@[simp] theorem State.withFree_firstTick (s : State) (free : List Nat) : (s.withFree free).firstTick = s.firstTick := rfl
@[simp] theorem State.withFree_pending (s : State) (free : List Nat) : (s.withFree free).pending = s.pending := rfl
@[simp] theorem State.withFree_line (s : State) (free : List Nat) (m : LineNo) : (s.withFree free).line m = s.line m := rfl
@[simp] theorem State.withFree_queue (s : State) (free : List Nat) (q : QueueId) : (s.withFree free).queue q = s.queue q := by cases q <;> rfl
@[simp] theorem State.withFree_record (s : State) (free : List Nat) (j : SlotNo) : (s.withFree free).record j = s.record j := rfl
@[simp] theorem State.withFree_param (s : State) (free : List Nat) (j : Fin 8) : (s.withFree free).param j = s.param j := rfl

/-! `State.setRecord` -/

@[simp] theorem State.setRecord_lines (s : State) (i : SlotNo) (r : StandingRecord) : (s.setRecord i r).lines = s.lines := rfl
@[simp] theorem State.setRecord_freeList (s : State) (i : SlotNo) (r : StandingRecord) : (s.setRecord i r).freeList = s.freeList := rfl
@[simp] theorem State.setRecord_drainLimit (s : State) (i : SlotNo) (r : StandingRecord) : (s.setRecord i r).drainLimit = s.drainLimit := rfl
@[simp] theorem State.setRecord_port (s : State) (i : SlotNo) (r : StandingRecord) : (s.setRecord i r).port = s.port := rfl
@[simp] theorem State.setRecord_memory (s : State) (i : SlotNo) (r : StandingRecord) : (s.setRecord i r).memory = s.memory := rfl
@[simp] theorem State.setRecord_host (s : State) (i : SlotNo) (r : StandingRecord) : (s.setRecord i r).host = s.host := rfl
@[simp] theorem State.setRecord_resetLow (s : State) (i : SlotNo) (r : StandingRecord) : (s.setRecord i r).resetLow = s.resetLow := rfl
@[simp] theorem State.setRecord_firstTick (s : State) (i : SlotNo) (r : StandingRecord) : (s.setRecord i r).firstTick = s.firstTick := rfl
@[simp] theorem State.setRecord_pending (s : State) (i : SlotNo) (r : StandingRecord) : (s.setRecord i r).pending = s.pending := rfl
@[simp] theorem State.setRecord_line (s : State) (i : SlotNo) (r : StandingRecord) (m : LineNo) : (s.setRecord i r).line m = s.line m := rfl
@[simp] theorem State.setRecord_queue (s : State) (i : SlotNo) (r : StandingRecord) (q : QueueId) : (s.setRecord i r).queue q = s.queue q := by cases q <;> rfl
@[simp] theorem State.setRecord_param (s : State) (i : SlotNo) (r : StandingRecord) (j : Fin 8) : (s.setRecord i r).param j = s.param j := rfl

/-! `State.leave` -/

@[simp] theorem State.leave_lines (s : State) (r : Result) : (s.leave r).lines = s.lines := rfl
@[simp] theorem State.leave_freeList (s : State) (r : Result) : (s.leave r).freeList = s.freeList := rfl
@[simp] theorem State.leave_drainLimit (s : State) (r : Result) : (s.leave r).drainLimit = s.drainLimit := rfl
@[simp] theorem State.leave_standing (s : State) (r : Result) : (s.leave r).standing = s.standing := rfl
@[simp] theorem State.leave_port (s : State) (r : Result) : (s.leave r).port = s.port := rfl
@[simp] theorem State.leave_memory (s : State) (r : Result) : (s.leave r).memory = s.memory := rfl
@[simp] theorem State.leave_resetLow (s : State) (r : Result) : (s.leave r).resetLow = s.resetLow := rfl
@[simp] theorem State.leave_firstTick (s : State) (r : Result) : (s.leave r).firstTick = s.firstTick := rfl
@[simp] theorem State.leave_pending (s : State) (r : Result) : (s.leave r).pending = s.pending := rfl
@[simp] theorem State.leave_line (s : State) (r : Result) (m : LineNo) : (s.leave r).line m = s.line m := rfl
@[simp] theorem State.leave_queue (s : State) (r : Result) (q : QueueId) : (s.leave r).queue q = s.queue q := by cases q <;> rfl
@[simp] theorem State.leave_record (s : State) (r : Result) (j : SlotNo) : (s.leave r).record j = s.record j := rfl

/-! `State.post` -/

@[simp] theorem State.post_lines (s : State) (k : EventKind) (a b v : Byte) : (s.post k a b v).lines = s.lines := rfl
@[simp] theorem State.post_freeList (s : State) (k : EventKind) (a b v : Byte) : (s.post k a b v).freeList = s.freeList := rfl
@[simp] theorem State.post_drainLimit (s : State) (k : EventKind) (a b v : Byte) : (s.post k a b v).drainLimit = s.drainLimit := rfl
@[simp] theorem State.post_standing (s : State) (k : EventKind) (a b v : Byte) : (s.post k a b v).standing = s.standing := rfl
@[simp] theorem State.post_port (s : State) (k : EventKind) (a b v : Byte) : (s.post k a b v).port = s.port := rfl
@[simp] theorem State.post_memory (s : State) (k : EventKind) (a b v : Byte) : (s.post k a b v).memory = s.memory := rfl
@[simp] theorem State.post_resetLow (s : State) (k : EventKind) (a b v : Byte) : (s.post k a b v).resetLow = s.resetLow := rfl
@[simp] theorem State.post_firstTick (s : State) (k : EventKind) (a b v : Byte) : (s.post k a b v).firstTick = s.firstTick := rfl
@[simp] theorem State.post_pending (s : State) (k : EventKind) (a b v : Byte) : (s.post k a b v).pending = s.pending := rfl
@[simp] theorem State.post_line (s : State) (k : EventKind) (a b v : Byte) (m : LineNo) : (s.post k a b v).line m = s.line m := rfl
@[simp] theorem State.post_queue (s : State) (k : EventKind) (a b v : Byte) (q : QueueId) : (s.post k a b v).queue q = s.queue q := by cases q <;> rfl
@[simp] theorem State.post_record (s : State) (k : EventKind) (a b v : Byte) (j : SlotNo) : (s.post k a b v).record j = s.record j := rfl

/-! `State.report` -/

@[simp] theorem State.report_lines (s : State) (v : Vector Byte 8) : (s.report v).lines = s.lines := rfl
@[simp] theorem State.report_freeList (s : State) (v : Vector Byte 8) : (s.report v).freeList = s.freeList := rfl
@[simp] theorem State.report_drainLimit (s : State) (v : Vector Byte 8) : (s.report v).drainLimit = s.drainLimit := rfl
@[simp] theorem State.report_standing (s : State) (v : Vector Byte 8) : (s.report v).standing = s.standing := rfl
@[simp] theorem State.report_port (s : State) (v : Vector Byte 8) : (s.report v).port = s.port := rfl
@[simp] theorem State.report_memory (s : State) (v : Vector Byte 8) : (s.report v).memory = s.memory := rfl
@[simp] theorem State.report_resetLow (s : State) (v : Vector Byte 8) : (s.report v).resetLow = s.resetLow := rfl
@[simp] theorem State.report_firstTick (s : State) (v : Vector Byte 8) : (s.report v).firstTick = s.firstTick := rfl
@[simp] theorem State.report_pending (s : State) (v : Vector Byte 8) : (s.report v).pending = s.pending := rfl
@[simp] theorem State.report_line (s : State) (v : Vector Byte 8) (m : LineNo) : (s.report v).line m = s.line m := rfl
@[simp] theorem State.report_queue (s : State) (v : Vector Byte 8) (q : QueueId) : (s.report v).queue q = s.queue q := by cases q <;> rfl
@[simp] theorem State.report_record (s : State) (v : Vector Byte 8) (j : SlotNo) : (s.report v).record j = s.record j := rfl

/-! `State.setParam` -/

@[simp] theorem State.setParam_lines (s : State) (i : Fin 8) (v : Byte) : (s.setParam i v).lines = s.lines := rfl
@[simp] theorem State.setParam_freeList (s : State) (i : Fin 8) (v : Byte) : (s.setParam i v).freeList = s.freeList := rfl
@[simp] theorem State.setParam_drainLimit (s : State) (i : Fin 8) (v : Byte) : (s.setParam i v).drainLimit = s.drainLimit := rfl
@[simp] theorem State.setParam_standing (s : State) (i : Fin 8) (v : Byte) : (s.setParam i v).standing = s.standing := rfl
@[simp] theorem State.setParam_port (s : State) (i : Fin 8) (v : Byte) : (s.setParam i v).port = s.port := rfl
@[simp] theorem State.setParam_memory (s : State) (i : Fin 8) (v : Byte) : (s.setParam i v).memory = s.memory := rfl
@[simp] theorem State.setParam_resetLow (s : State) (i : Fin 8) (v : Byte) : (s.setParam i v).resetLow = s.resetLow := rfl
@[simp] theorem State.setParam_firstTick (s : State) (i : Fin 8) (v : Byte) : (s.setParam i v).firstTick = s.firstTick := rfl
@[simp] theorem State.setParam_pending (s : State) (i : Fin 8) (v : Byte) : (s.setParam i v).pending = s.pending := rfl
@[simp] theorem State.setParam_line (s : State) (i : Fin 8) (v : Byte) (m : LineNo) : (s.setParam i v).line m = s.line m := rfl
@[simp] theorem State.setParam_queue (s : State) (i : Fin 8) (v : Byte) (q : QueueId) : (s.setParam i v).queue q = s.queue q := by cases q <;> rfl
@[simp] theorem State.setParam_record (s : State) (i : Fin 8) (v : Byte) (j : SlotNo) : (s.setParam i v).record j = s.record j := rfl

/-! The fields that the updates write -/

@[simp] theorem State.modHost_host (s : State) (f : HostPort → HostPort) : (s.modHost f).host = f s.host := rfl
@[simp] theorem State.modPort_port (s : State) (f : MemoryPort → MemoryPort) : (s.modPort f).port = f s.port := rfl
@[simp] theorem State.withFree_freeList (s : State) (free : List Nat) : (s.withFree free).freeList = free := rfl
@[simp] theorem State.leave_host (s : State) (r : Result) :
    (s.leave r).host = { s.host with result := r, cmdRefused := s.host.cmdRefused || isRefusal r } := rfl
@[simp] theorem State.post_host (s : State) (k : EventKind) (a b v : Byte) : (s.post k a b v).host = postRecord k a b v s.host := rfl

/-! Reads after writes -/

@[simp] theorem State.line_modLine_same (s : State) (n : LineNo) (f : Line → Line) :
    (s.modLine n f).line n = f (s.line n) := by
  simp [State.line, State.modLine, Vector.get_eq_getElem]

theorem State.line_modLine_other (s : State) {n m : LineNo} (f : Line → Line) (h : m ≠ n) :
    (s.modLine n f).line m = s.line m := by
  have : (n : Nat) ≠ m := fun e => h (Fin.ext e.symm)
  simp [State.line, State.modLine, Vector.get_eq_getElem, this]

theorem State.line_modLine (s : State) (n m : LineNo) (f : Line → Line) :
    (s.modLine n f).line m = if m = n then f (s.line n) else s.line m := by
  by_cases h : m = n
  · subst h; simp
  · simp [h, State.line_modLine_other s f h]

@[simp] theorem State.record_setRecord_same (s : State) (i : SlotNo) (r : StandingRecord) :
    (s.setRecord i r).record i = r := by
  simp [State.record, State.setRecord, Vector.get_eq_getElem]

theorem State.record_setRecord_other (s : State) {i j : SlotNo} (r : StandingRecord) (h : j ≠ i) :
    (s.setRecord i r).record j = s.record j := by
  have : (i : Nat) ≠ j := fun e => h (Fin.ext e.symm)
  simp [State.record, State.setRecord, Vector.get_eq_getElem, this]

theorem State.record_setRecord (s : State) (i j : SlotNo) (r : StandingRecord) :
    (s.setRecord i r).record j = if j = i then r else s.record j := by
  by_cases h : j = i
  · subst h; simp
  · simp [h, State.record_setRecord_other s r h]

@[simp] theorem State.param_setParam_same (s : State) (i : Fin 8) (v : Byte) : (s.setParam i v).param i = v := by
  simp [State.param, State.setParam, State.modHost, Vector.get_eq_getElem]

@[simp] theorem State.queue_setQueue_same (s : State) (q : QueueId) (v : Queue) : (s.setQueue q v).queue q = v := by
  cases q <;> simp [State.setQueue, State.queue]

theorem State.queue_setQueue_other (s : State) {q p : QueueId} (v : Queue) (h : p ≠ q) :
    (s.setQueue q v).queue p = s.queue p := by
  cases q <;> cases p <;> simp only [State.setQueue, State.queue, State.line_modLine] <;> split <;> simp_all

theorem State.queue_setQueue (s : State) (q p : QueueId) (v : Queue) :
    (s.setQueue q v).queue p = if p = q then v else s.queue p := by
  by_cases h : p = q
  · subst h; simp
  · simp [h, State.queue_setQueue_other s v h]

@[simp] theorem State.setQueue_freeList (s : State) (q : QueueId) (v : Queue) : (s.setQueue q v).freeList = s.freeList := by
  cases q <;> rfl
@[simp] theorem State.setQueue_standing (s : State) (q : QueueId) (v : Queue) : (s.setQueue q v).standing = s.standing := by
  cases q <;> rfl
@[simp] theorem State.setQueue_port (s : State) (q : QueueId) (v : Queue) : (s.setQueue q v).port = s.port := by
  cases q <;> rfl
@[simp] theorem State.setQueue_memory (s : State) (q : QueueId) (v : Queue) : (s.setQueue q v).memory = s.memory := by
  cases q <;> rfl
@[simp] theorem State.setQueue_host (s : State) (q : QueueId) (v : Queue) : (s.setQueue q v).host = s.host := by
  cases q <;> rfl
@[simp] theorem State.setQueue_drainLimit (s : State) (q : QueueId) (v : Queue) :
    (s.setQueue q v).drainLimit = s.drainLimit := by cases q <;> rfl
@[simp] theorem State.setQueue_resetLow (s : State) (q : QueueId) (v : Queue) : (s.setQueue q v).resetLow = s.resetLow := by
  cases q <;> rfl
@[simp] theorem State.setQueue_firstTick (s : State) (q : QueueId) (v : Queue) : (s.setQueue q v).firstTick = s.firstTick := by
  cases q <;> rfl
@[simp] theorem State.setQueue_pending (s : State) (q : QueueId) (v : Queue) : (s.setQueue q v).pending = s.pending := by
  cases q <;> rfl

/-- Two states with the same parts are the same state; two states have the same lines when each line is the same. -/
theorem State.lines_ext {v w : Vector Line 8} (h : ∀ n : LineNo, v.get n = w.get n) : v = w := by
  apply Vector.ext
  intro i hi
  have := h ⟨i, hi⟩
  simpa [Vector.get_eq_getElem] using this

end Sys2Proof.Machine
end

