-- ==== Sys2Proof/Laws/Commands.lean ====
section
/-! SUPPORT. How a command reads the line or slot in P0 and leaves its result: what the checks shared by the commands come to,
each said once. -/

namespace Sys2Proof.Machine

@[simp] theorem lineOfByte_lineByte (n : LineNo) : lineOfByte (lineByte n) = some n := by
  revert n; decide

@[simp] theorem slotOfByte_slotByte (i : SlotNo) : slotOfByte (slotByte i) = some i := by
  revert i; decide

theorem State.isLoading_eq_false {s : State} (h : s.port.state ≠ .loading) : s.isLoading = false := by
  simp [State.isLoading, h]

theorem State.isLoading_eq_true {s : State} (h : s.port.state = .loading) : s.isLoading = true := by
  simp [State.isLoading, h]

/-- A command that names line n goes on to its own checks with n. -/
theorem State.checkLine_of_names {s : State} {n : LineNo} (h : s.Names n) (f : LineNo → State) : s.checkLine f = f n := by
  simp [State.checkLine, State.isLoading_eq_false h.1.2, h.2]

/-- A command that names slot i goes on to its own checks with i. -/
theorem State.checkSlot_of_names {s : State} {i : SlotNo} (h : s.NamesSlot i) (f : SlotNo → State) :
    s.checkSlot f = f i := by
  simp [State.checkSlot, State.isLoading_eq_false h.1.2, h.2]

theorem State.checkLine_of_loading {s : State} (h : s.port.state = .loading) (f : LineNo → State) :
    s.checkLine f = s.leave .loading := by
  simp [State.checkLine, State.isLoading_eq_true h]

theorem State.checkSlot_of_loading {s : State} (h : s.port.state = .loading) (f : SlotNo → State) :
    s.checkSlot f = s.leave .loading := by
  simp [State.checkSlot, State.isLoading_eq_true h]

/-- An accepted command's result code changes nothing but RESULT. -/
theorem State.leave_of_accepted (s : State) (r : Result) (h : isRefusal r = false) : s.leave r = s.withResult r := by
  simp [State.leave, State.modHost, State.withResult, h]

/-- A refused command's result code sets CMD_REFUSED too. -/
theorem State.leave_of_refused (s : State) (r : Result) (h : isRefusal r = true) :
    s.leave r = { s with host := { s.host with result := r, cmdRefused := true } } := by
  simp [State.leave, State.modHost, h]

/-- An access or event taken while RESET# is high. -/
theorem whileRunning_of_high {s : State} (h : s.resetLow = false) (f : State → State) : whileRunning s f = .next (f s) := by
  simp [whileRunning, h]

/-- An access or event while RESET# is low is not taken. -/
theorem whileRunning_of_low {s : State} (h : s.resetLow = true) (f : State → State) : whileRunning s f = .next s := by
  simp [whileRunning, h]

theorem whileReading_of_high {s : State} (h : s.resetLow = false) (f : State → State) : whileReading s f = .next (f s) := by
  simp [whileReading, h]

end Sys2Proof.Machine
end

