-- ==== Sys2Proof/Laws/Events.lean ====
section
/-! SUPPORT. The event queue: what the posting rule leaves alone, and that the removal of the head keeps the two laws of the queue. -/

namespace Sys2Proof.Machine

theorem newestIsOverflow_append (es : List Event) (e : Event) : newestIsOverflow (es ++ [e]) = (e.kind == .overflow) := by
  simp [newestIsOverflow]

theorem newestIsOverflow_nil : newestIsOverflow [] = false := rfl

theorem countNewest_append (es : List Event) (e : Event) : countNewest (es ++ [e]) = es ++ [countOne e] := by
  simp [countNewest]

@[simp] theorem countOne_kind (e : Event) : (countOne e).kind = e.kind := rfl
@[simp] theorem countOne_seq (e : Event) : (countOne e).seq = e.seq := rfl

/-- What the posting rule leaves of everything but the queue and the next sequence number. -/
theorem postRecord_frame (kind : EventKind) (line peer info : Byte) (h : HostPort) :
    ∃ es k, postRecord kind line peer info h = { h with events := es, nextSeq := k } := by
  unfold postRecord
  split
  · exact ⟨_, h.nextSeq, rfl⟩
  · split <;> exact ⟨_, _, rfl⟩

/-- The removal of the head record keeps the law of the queue (R178, R179). -/
theorem HostPort.EventLaw.tail {h : HostPort} {e : Event} {rest : List Event} (hl : h.EventLaw)
    (he : h.events = e :: rest) : ({ h with events := rest } : HostPort).EventLaw := by
  obtain ⟨h1, h2, -⟩ := hl
  rw [he] at h1 h2
  refine ⟨by simp at h1 ⊢; omega, fun x hx => h2 x ?_, fun hc => by simp at h1 hc; omega⟩
  cases rest with
  | nil => simp at hx
  | cons a as => simp [List.dropLast] at hx ⊢; exact .inr hx

/-- The removal of the head record keeps the sequence numbers (R178, R179). -/
theorem HostPort.SeqLaw.tail {h : HostPort} {e : Event} {rest : List Event} (hl : h.SeqLaw)
    (he : h.events = e :: rest) : ({ h with events := rest } : HostPort).SeqLaw := by
  intro i hi
  have := hl (i + 1) (by simp [he]; exact hi)
  simp only [he, List.getElem_cons_succ, List.length_cons] at this
  simpa [Nat.add_sub_add_right] using this

end Sys2Proof.Machine
end

