-- ==== Sys2Proof/Laws/Frames.lean ====
section
/-! SUPPORT. Each shared operation of traffic, calls, connections and releases leaves the drain limit, the Memory Port, the
external memory, RESET#, the first tick and the queue of commands as they are. -/

namespace Sys2Proof.Machine

theorem State.SameFrame.refl (s : State) : s.SameFrame s := ⟨rfl, rfl, rfl, rfl, rfl, rfl⟩

theorem State.SameFrame.trans {s t u : State} (h : s.SameFrame t) (k : t.SameFrame u) : s.SameFrame u :=
  ⟨k.1.trans h.1, k.2.1.trans h.2.1, k.2.2.1.trans h.2.2.1, k.2.2.2.1.trans h.2.2.2.1, k.2.2.2.2.1.trans h.2.2.2.2.1,
    k.2.2.2.2.2.trans h.2.2.2.2.2⟩

theorem State.sameFrame_modLine (s : State) (n : LineNo) (f : Line → Line) : s.SameFrame (s.modLine n f) := .refl s
theorem State.sameFrame_modHost (s : State) (f : HostPort → HostPort) : s.SameFrame (s.modHost f) := .refl s
theorem State.sameFrame_withFree (s : State) (f : List Nat) : s.SameFrame (s.withFree f) := .refl s
theorem State.sameFrame_setRecord (s : State) (i : SlotNo) (r : StandingRecord) : s.SameFrame (s.setRecord i r) := .refl s
theorem State.sameFrame_post (s : State) (k : EventKind) (a b c : Byte) : s.SameFrame (s.post k a b c) := .refl s
theorem State.sameFrame_leave (s : State) (r : Result) : s.SameFrame (s.leave r) := .refl s

theorem State.sameFrame_setQueue (s : State) (q : QueueId) (v : Queue) : s.SameFrame (s.setQueue q v) := by
  cases q <;> exact .refl s

theorem State.sameFrame_append {s t : State} {q : QueueId} {e : Entry} (h : s.append q e = some t) : s.SameFrame t := by
  unfold State.append at h
  dsimp only at h
  split at h
  · cases h; exact s.sameFrame_setQueue _ _
  · split at h
    · split at h
      · cases h
      · cases h; exact (s.sameFrame_withFree _).trans (State.sameFrame_setQueue _ _ _)
    · cases h

theorem State.sameFrame_removeOldest {s t : State} {q : QueueId} {e : Entry} (h : s.removeOldest q = some (e, t)) :
    s.SameFrame t := by
  unfold State.removeOldest at h
  dsimp only at h
  split at h
  · cases h
  · split at h
    · cases h; exact (s.sameFrame_withFree _).trans (State.sameFrame_setQueue _ _ _)
    · split at h <;> cases h
      · exact (s.sameFrame_withFree _).trans (State.sameFrame_setQueue _ _ _)
      · exact s.sameFrame_setQueue _ _

theorem State.sameFrame_discard (s : State) (q : QueueId) : s.SameFrame (s.discard q) :=
  (s.sameFrame_withFree _).trans (State.sameFrame_setQueue _ _ _)

theorem State.sameFrame_holdEval (s : State) (x : LineNo) : s.SameFrame (s.holdEval x) := by
  unfold State.holdEval State.beginCode
  split <;> exact .refl s

theorem State.sameFrame_tellHold (s : State) (q : QueueId) : s.SameFrame (s.tellHold q) := by
  unfold State.tellHold
  split
  · exact s.sameFrame_holdEval _
  · exact .refl s

theorem State.sameFrame_startMonitor (s : State) (x : LineNo) : s.SameFrame (s.startMonitor x) := by
  exact s.sameFrame_modLine x _

theorem State.sameFrame_bridge (s : State) (x y : LineNo) : s.SameFrame (s.bridge x y) := by
  unfold State.bridge
  refine .trans ?_ (State.sameFrame_startMonitor _ _)
  refine .trans ?_ (State.sameFrame_startMonitor _ _)
  refine .trans ?_ (State.sameFrame_holdEval _ _)
  exact .trans (.refl s) (State.sameFrame_holdEval _ _)

theorem State.sameFrame_establish (s : State) (i : SlotNo) (c : Contents) : s.SameFrame (s.establish i c) := by
  unfold State.establish
  refine .trans ?_ (State.sameFrame_post _ _ _ _ _)
  refine .trans ?_ (State.sameFrame_setRecord _ _ _)
  refine .trans ?_ (State.sameFrame_bridge _ _ _)
  exact (s.sameFrame_modLine _ _).trans (State.sameFrame_modLine _ _ _)

theorem State.sameFrame_evaluateSlot (s : State) (i : SlotNo) : s.SameFrame (s.evaluateSlot i) := by
  unfold State.evaluateSlot
  split
  · split
    · exact s.sameFrame_establish _ _
    · exact .refl s
  all_goals exact .refl s

theorem State.sameFrame_evaluateLine (s : State) (n : LineNo) : s.SameFrame (s.evaluateLine n) := by
  suffices h : ∀ (is : List SlotNo) (t : State), s.SameFrame t →
      s.SameFrame (is.foldl (fun t i => if reserves (t.record i) n then t.evaluateSlot i else t) t) from h _ _ (.refl s)
  intro is
  induction is with
  | nil => exact fun t h => h
  | cons i is ih =>
    intro t h
    refine ih _ ?_
    dsimp only
    split
    · exact h.trans (t.sameFrame_evaluateSlot i)
    · exact h

theorem State.sameFrame_openLine (s : State) (n : LineNo) : s.SameFrame (s.openLine n) := by
  unfold State.openLine
  exact (s.sameFrame_modLine _ _).trans (State.sameFrame_evaluateLine _ _)

theorem State.sameFrame_returnToHost (s : State) (n : LineNo) : s.SameFrame (s.returnToHost n) := by
  unfold State.returnToHost
  refine .trans ?_ (State.sameFrame_evaluateLine _ _)
  refine .trans ?_ (State.sameFrame_modLine _ _ _)
  exact (s.sameFrame_modLine _ _).trans (State.sameFrame_post _ _ _ _ _)

theorem State.sameFrame_drainCheck (s : State) (n : LineNo) : s.SameFrame (s.drainCheck n) := by
  unfold State.drainCheck
  split
  · exact s.sameFrame_returnToHost n
  · exact .refl s

theorem State.sameFrame_tqEmptied (s : State) (n : LineNo) : s.SameFrame (s.tqEmptied n) :=
  (s.sameFrame_drainCheck n).trans (State.sameFrame_evaluateLine _ _)

theorem State.sameFrame_answer (s : State) (x y : LineNo) : s.SameFrame (s.answer x y) := by
  unfold State.answer
  refine .trans ?_ (State.sameFrame_post _ _ _ _ _)
  exact (s.sameFrame_modLine _ _).trans (State.sameFrame_bridge _ _ _)

theorem State.sameFrame_failCall (s : State) (x y : LineNo) (r : FailReason) : s.SameFrame (s.failCall x y r) := by
  unfold State.failCall
  dsimp only
  split <;>
  · refine .trans ?_ (State.sameFrame_evaluateLine _ _)
    refine .trans ?_ (State.sameFrame_evaluateLine _ _)
    refine .trans ?_ (State.sameFrame_post _ _ _ _ _)
    exact (s.sameFrame_modLine _ _).trans (State.sameFrame_modLine _ _ _)

theorem State.sameFrame_beginOldest (s : State) (n : LineNo) : s.SameFrame (s.beginOldest n) := by
  unfold State.beginOldest
  split
  · exact .refl s
  · next e t h =>
    have k : s.SameFrame ((t.modLine n (beginEntry e)).tellHold (.tq n)) :=
      (State.sameFrame_removeOldest h).trans ((t.sameFrame_modLine _ _).trans (State.sameFrame_tellHold _ _))
    dsimp only
    split
    · exact k.trans (State.sameFrame_tqEmptied _ _)
    · exact k

theorem State.sameFrame_kickTx (s : State) (n : LineNo) : s.SameFrame (s.kickTx n) := by
  unfold State.kickTx
  split
  · exact .refl s
  · split
    · unfold State.beginCode; split <;> exact .refl s
    · split
      · exact .refl s
      · exact s.sameFrame_beginOldest n

theorem State.sameFrame_tellAppended (s : State) (q : QueueId) (b : Bool) : s.SameFrame (s.tellAppended q b) := by
  unfold State.tellAppended
  split
  · exact s.sameFrame_tellHold _
  · split
    · exact (s.sameFrame_tellHold _).trans (State.sameFrame_kickTx _ _)
    · exact s.sameFrame_tellHold _

theorem State.sameFrame_noteOverrun (s : State) (x : LineNo) (p : OverrunPlace) : s.SameFrame (s.noteOverrun x p) := by
  unfold State.noteOverrun
  split <;> exact .refl s

theorem State.sameFrame_routeAppend (s : State) (x : LineNo) (q : QueueId) (p : OverrunPlace) (e : Entry) :
    s.SameFrame (s.routeAppend x q p e) := by
  unfold State.routeAppend
  split
  · exact s.sameFrame_noteOverrun _ _
  · next t h => exact (State.sameFrame_append h).trans ((t.sameFrame_modLine _ _).trans (State.sameFrame_tellAppended _ _ _))

theorem State.sameFrame_appendBatch (es : List Entry) (s : State) (q : QueueId) : s.SameFrame (s.appendBatch q es).2 := by
  induction es generalizing s with
  | nil => exact .refl s
  | cons e es ih =>
    unfold State.appendBatch
    split
    · exact .refl s
    · next t h => exact (State.sameFrame_append h).trans ((t.sameFrame_tellHold q).trans (ih _))

theorem State.sameFrame_handOver (s : State) (x y : LineNo) : s.SameFrame (s.handOver x y) := by
  have ite : ∀ (p : Prop) [Decidable p] (t u v : State), t.SameFrame u → t.SameFrame v → t.SameFrame (if p then u else v) := by
    intro p _ t u v h k
    split
    · exact h
    · exact k
  unfold State.handOver
  dsimp only
  refine .trans (s.sameFrame_modLine x fun l => { l with monitor := { l.monitor with holding := [], count := 0 } }) ?_
  refine .trans (State.sameFrame_appendBatch (s.line x).monitor.holding _ (.tq y)) ?_
  have a : ∀ t : State, t.SameFrame (if 0 < (State.appendBatch (s.modLine x fun l =>
      { l with monitor := { l.monitor with holding := [], count := 0 } }) (.tq y) (s.line x).monitor.holding).1 then
      t.noteOverrun x .peerTq else t) := fun t => ite _ _ _ _ (t.sameFrame_noteOverrun _ _) (.refl t)
  refine .trans ?_ (a _)
  refine .trans (ite _ _ _ _ (State.sameFrame_modLine _ x _) (.refl _)) (ite _ _ _ _ (State.sameFrame_kickTx _ y) (.refl _))

theorem State.sameFrame_release (s : State) (x : LineNo) (r : ReleaseReason) : s.SameFrame (s.release x r) := by
  have told : ∀ (t : State) (o : Origin), t.SameFrame (t.tellStanding o r) := by
    intro t o
    cases o with
    | ordered => exact .refl t
    | standing i => exact t.sameFrame_setRecord i _
  unfold State.release
  split
  · next c _ _ =>
    unfold State.releaseStep
    dsimp only
    refine .trans ?_ (State.sameFrame_drainCheck _ _)
    refine .trans ?_ (State.sameFrame_drainCheck _ _)
    refine .trans ?_ (told _ _)
    refine .trans ?_ (State.sameFrame_post _ _ _ _ _)
    refine .trans ?_ (State.sameFrame_holdEval _ _)
    refine .trans ?_ (State.sameFrame_holdEval _ _)
    refine .trans ?_ (State.sameFrame_modLine _ _ _)
    refine .trans ?_ (State.sameFrame_modLine _ _ _)
    exact (s.sameFrame_handOver _ _).trans (State.sameFrame_handOver _ _ _)
  · exact .refl s

end Sys2Proof.Machine
end

