-- ==== Sys2Proof/Laws/Hold.lean ====
section
/-! SUPPORT. Composition of line updates, and what the Hold Logic, the transmitter and the Connection Table's shared operations
do, each said once. -/

namespace Sys2Proof.Machine

/-! ### Line updates compose -/

theorem State.modLine_congr {s : State} {n : LineNo} {f g : Line → Line} (h : f (s.line n) = g (s.line n)) :
    s.modLine n f = s.modLine n g := by
  simp [State.modLine, h]

theorem State.modLine_id {s : State} {n : LineNo} {f : Line → Line} (h : f (s.line n) = s.line n) : s.modLine n f = s := by
  cases s
  simp only [State.modLine, h, State.mk.injEq, and_self, and_true]
  exact Vector.set_getElem_self ..

theorem State.modLine_modLine (s : State) (n : LineNo) (f g : Line → Line) :
    (s.modLine n f).modLine n g = s.modLine n fun l => g (f l) := by
  have h : ((s.modLine n f).line n) = f (s.line n) := State.line_modLine_same s n f
  unfold State.modLine at *
  simp [h]

theorem State.modLine_comm (s : State) {n m : LineNo} (h : n ≠ m) (f g : Line → Line) :
    (s.modLine n f).modLine m g = (s.modLine m g).modLine n f := by
  have h1 := State.line_modLine_other s f (n := n) (m := m) (Ne.symm h)
  have h2 := State.line_modLine_other s g (n := m) (m := n) h
  have hv : (n : Nat) ≠ (m : Nat) := fun e => h (Fin.ext e)
  unfold State.modLine at *
  simp only [h1, h2]
  congr 1
  exact Vector.set_comm _ _ hv

/-- Two states are equal when their lines and their other parts are. -/
theorem State.ext_lines {s t : State} (h : ∀ n, s.line n = t.line n) (h1 : s.freeList = t.freeList)
    (h2 : s.drainLimit = t.drainLimit) (h3 : s.standing = t.standing) (h4 : s.port = t.port) (h5 : s.memory = t.memory)
    (h6 : s.host = t.host) (h7 : s.resetLow = t.resetLow) (h8 : s.firstTick = t.firstTick) (h9 : s.pending = t.pending) :
    s = t := by
  have : s.lines = t.lines := State.lines_ext h
  cases s; cases t; simp_all

/-! ### The Hold Logic -/

theorem State.codePending_iff (l : Line) :
    l.codePending = true ↔ l.hold.method = .inband ∧ l.inputHeld ≠ announcedHeld l.announced := by
  simp [Line.codePending]

/-- The model's verdict on the marks is the one that R43 states. -/
theorem marksVerdict_eq_heldAt (l : Line) (k : Nat) : marksVerdict l k = l.heldAt k := by
  simp only [marksVerdict, Line.heldAt, Nat.mul_comm]

theorem announceOf_eq (h : Bool) : announceOf h = if h then .paused else .running := by cases h <;> rfl

/-- A hold evaluation is one change of its line: the occupancy of the destination taken (R43, R44, R47). -/
theorem State.holdEval_eq (s : State) (x : LineNo) :
    s.holdEval x = s.modLine x fun l => l.afterOccupancy (s.queue (s.destination x)).occupancy := by
  unfold State.holdEval State.beginCode
  split
  · rename_i h
    simp only [State.compareMarks, State.line_modLine_same, Bool.and_eq_true, beq_iff_eq, State.codePending_iff,
      marksVerdict_eq_heldAt] at h
    rw [State.compareMarks, State.modLine_modLine]
    apply State.modLine_congr
    simp only [Line.afterOccupancy, Line.codeValue, marksVerdict_eq_heldAt, announceOf_eq]
    exact (if_pos ⟨h.1, h.2.1, h.2.2⟩).symm
  · rename_i h
    simp only [State.compareMarks, State.line_modLine_same, Bool.and_eq_true, beq_iff_eq, State.codePending_iff,
      marksVerdict_eq_heldAt] at h
    apply State.modLine_congr
    simp only [Line.afterOccupancy, marksVerdict_eq_heldAt]
    rw [if_neg]
    exact fun c => h ⟨c.1, c.2.1, c.2.2⟩

theorem Line.afterOccupancy_eq_or (l : Line) (k : Nat) :
    l.afterOccupancy k = { l with inputHeld := l.heldAt k } ∨
      (l.tx = .idle ∧ l.hold.method = .inband ∧ ∃ c, l.afterOccupancy k =
        { l with inputHeld := l.heldAt k, announced := announceOf (l.heldAt k), tx := .flow c l.settings.format }) := by
  unfold Line.afterOccupancy
  simp only [announceOf_eq]
  split
  · rename_i h; exact .inr ⟨h.1, h.2.1, _, rfl⟩
  · exact .inl rfl

/-! What a hold evaluation leaves of a line. -/

@[simp] theorem Line.afterOccupancy_state (l : Line) (k : Nat) : (l.afterOccupancy k).state = l.state := by
  unfold Line.afterOccupancy; dsimp only; split <;> rfl
@[simp] theorem Line.afterOccupancy_conn (l : Line) (k : Nat) : (l.afterOccupancy k).conn = l.conn := by
  unfold Line.afterOccupancy; dsimp only; split <;> rfl
@[simp] theorem Line.afterOccupancy_rq (l : Line) (k : Nat) : (l.afterOccupancy k).rq = l.rq := by
  unfold Line.afterOccupancy; dsimp only; split <;> rfl
@[simp] theorem Line.afterOccupancy_tq (l : Line) (k : Nat) : (l.afterOccupancy k).tq = l.tq := by
  unfold Line.afterOccupancy; dsimp only; split <;> rfl
@[simp] theorem Line.afterOccupancy_monitor (l : Line) (k : Nat) : (l.afterOccupancy k).monitor = l.monitor := by
  unfold Line.afterOccupancy; dsimp only; split <;> rfl
@[simp] theorem Line.afterOccupancy_ready (l : Line) (k : Nat) : (l.afterOccupancy k).ready = l.ready := by
  unfold Line.afterOccupancy; dsimp only; split <;> rfl
@[simp] theorem Line.afterOccupancy_settings (l : Line) (k : Nat) : (l.afterOccupancy k).settings = l.settings := by
  unfold Line.afterOccupancy; dsimp only; split <;> rfl
@[simp] theorem Line.afterOccupancy_hold (l : Line) (k : Nat) : (l.afterOccupancy k).hold = l.hold := by
  unfold Line.afterOccupancy; dsimp only; split <;> rfl
@[simp] theorem Line.afterOccupancy_overrun (l : Line) (k : Nat) : (l.afterOccupancy k).overrun = l.overrun := by
  unfold Line.afterOccupancy; dsimp only; split <;> rfl
@[simp] theorem Line.afterOccupancy_inputHeld (l : Line) (k : Nat) : (l.afterOccupancy k).inputHeld = l.heldAt k := by
  unfold Line.afterOccupancy; dsimp only; split <;> rfl

theorem Line.afterOccupancy_tx (l : Line) (k : Nat) (h : l.tx ≠ .idle) : (l.afterOccupancy k).tx = l.tx := by
  unfold Line.afterOccupancy; dsimp only; rw [if_neg (fun c => h c.1)]

theorem Line.afterOccupancy_tx_ne_idle (l : Line) (k : Nat) (h : l.tx ≠ .idle) : (l.afterOccupancy k).tx ≠ .idle := by
  rw [Line.afterOccupancy_tx l k h]; exact h

/-- After a hold evaluation an idle transmitter has no code pending (R9). -/
theorem Line.afterOccupancy_codePending (l : Line) (k : Nat) (h : (l.afterOccupancy k).tx = .idle) :
    (l.afterOccupancy k).codePending = false := by
  unfold Line.afterOccupancy at *
  dsimp only at *
  split at h
  · cases h
  · rename_i hn
    rw [if_neg hn]
    simp only [Line.codePending, Bool.and_eq_false_iff, beq_eq_false_iff_ne, bne_eq_false_iff_eq]
    by_contra hc
    simp only [not_or, not_not] at hc
    exact hn ⟨h, hc.1, hc.2⟩

/-- A queue that is no line's destination has no hold neighbour to tell. -/
theorem State.tellHold_of_none {s : State} {q : QueueId} (h : s.holdNeighbour q = none) : s.tellHold q = s := by
  simp [State.tellHold, h]

theorem State.tellHold_of_some {s : State} {q : QueueId} {x : LineNo} (h : s.holdNeighbour q = some x) :
    s.tellHold q = s.modLine x fun l => l.afterOccupancy (s.queue (s.destination x)).occupancy := by
  rw [State.tellHold, h]; exact State.holdEval_eq s x

theorem State.destination_of_ne {s : State} {n : LineNo} (h : (s.line n).state ≠ .bridged) : s.destination n = .rq n := by
  unfold State.destination
  split <;> simp_all

theorem State.destination_of_bridged {s : State} {n : LineNo} {c : Connection} (h : (s.line n).state = .bridged)
    (hc : (s.line n).conn = some c) : s.destination n = .tq c.peer := by
  simp [State.destination, h, hc]

theorem State.holdNeighbour_rq_of_ne {s : State} {n : LineNo} (h : (s.line n).state ≠ .bridged) :
    s.holdNeighbour (.rq n) = some n := by
  simp [State.holdNeighbour, State.destination_of_ne h]

theorem State.holdNeighbour_rq_of_bridged {s : State} {n : LineNo} (h : (s.line n).state = .bridged)
    (hc : (s.line n).conn ≠ none) : s.holdNeighbour (.rq n) = none := by
  obtain ⟨c, hc⟩ := Option.ne_none_iff_exists'.mp hc
  simp [State.holdNeighbour, State.destination_of_bridged h hc]

theorem State.holdNeighbour_tq_of_none {s : State} {n : LineNo} (h : (s.line n).conn = none) :
    s.holdNeighbour (.tq n) = none := by
  simp [State.holdNeighbour, h]

/-! ### Evaluation of standing records -/

theorem State.evaluateLine_of_unreserved {s : State} {n : LineNo} (h : s.Unreserved n) : s.evaluateLine n = s := by
  have h0 := h 0; have h1 := h 1; have h2 := h 2; have h3 := h 3
  simp [State.evaluateLine, allSlots, h0, h1, h2, h3]

theorem State.drainCheck_of_ne {s : State} {n : LineNo} (h : (s.line n).state ≠ .draining) : s.drainCheck n = s := by
  simp [State.drainCheck, h]

theorem State.drainCheck_of_sending {s : State} {n : LineNo} (h : (s.line n).tq.entries ≠ [] ∨ (s.line n).tx ≠ .idle) :
    s.drainCheck n = s := by
  unfold State.drainCheck
  rw [if_neg]
  rintro ⟨-, hd⟩
  simp [Line.drained] at hd
  rcases h with h | h <;> simp_all

/-! ### The transmitter -/

theorem State.kickTx_of_busy {s : State} {n : LineNo} (h : (s.line n).tx ≠ .idle) : s.kickTx n = s := by
  simp [State.kickTx, h]

theorem State.kickTx_of_held {s : State} {n : LineNo} (h : (s.line n).codePending = false)
    (ho : (s.line n).outputHeld = true) : s.kickTx n = s := by
  unfold State.kickTx; split <;> simp_all

theorem State.kickTx_of_empty {s : State} {n : LineNo} (h : (s.line n).codePending = false)
    (ho : (s.line n).tq.entries = []) : s.kickTx n = s := by
  unfold State.kickTx State.beginOldest State.removeOldest
  simp [State.queue, ho, h]

theorem State.kickTx_of_code {s : State} {n : LineNo} (h : (s.line n).tx = .idle) (hc : (s.line n).codePending = true) :
    s.kickTx n = s.modLine n fun l =>
      { l with tx := .flow l.codeValue l.settings.format, announced := announceOf l.inputHeld } := by
  simp [State.kickTx, State.beginCode, h, hc]

end Sys2Proof.Machine
end

