-- ==== Sys2Proof/Laws/Memory.lean ====
section
/-! SUPPORT. The record of the external memory: reads after writes, and that every write keeps the canonical form. -/

namespace Sys2Proof.Machine

theorem memoryRead_write (m : List Host.Cell) (a b : Nat) (v : Byte) :
    memoryRead (memoryWrite m a v) b = if b = a then some v else memoryRead m b := by
  induction m with
  | nil => simp [memoryWrite, memoryRead]
  | cons c rest ih =>
    obtain ⟨k, w⟩ := c
    unfold memoryWrite
    split
    · simp [memoryRead]
    · split
      · next h => subst h; simp only [memoryRead]; split <;> rfl
      · next h => simp only [memoryRead, ih]; split <;> split <;> simp_all

/-- Bytes written in order from an address are read back there, and no other address changes. -/
theorem memoryRead_writeAll (vs : List Byte) (m : List Host.Cell) (a b : Nat) :
    memoryRead (memoryWriteAll m a vs) b = if a ≤ b ∧ b < a + vs.length then vs[b - a]? else memoryRead m b := by
  induction vs generalizing m a with
  | nil => simp [memoryWriteAll]
  | cons v vs ih =>
    rw [memoryWriteAll, ih, memoryRead_write]
    by_cases h : b = a
    · subst h; simp
    · by_cases h' : a + 1 ≤ b ∧ b < a + 1 + vs.length
      · have e : b - a = (b - (a + 1)) + 1 := by omega
        rw [if_pos h', if_pos (by simp; omega), e, List.getElem?_cons_succ]
      · rw [if_neg h', if_neg h, if_neg (by simp; omega)]

theorem memoryWf_cons (a : Nat) (v : Byte) (m : List Host.Cell) :
    memoryWf ((a, v) :: m) = true ↔ (∀ c, m.head? = some c → a < c.1) ∧ memoryWf m = true := by
  cases m <;> simp [memoryWf]

theorem memoryWrite_head (m : List Host.Cell) (a : Nat) (v : Byte) (c : Host.Cell)
    (h : (memoryWrite m a v).head? = some c) : c.1 = a ∨ m.head?.map (·.1) = some c.1 := by
  cases m with
  | nil => simp [memoryWrite] at h; simp [← h]
  | cons d rest =>
    obtain ⟨k, w⟩ := d
    unfold memoryWrite at h
    split at h
    · simp at h; simp [← h]
    · split at h <;> simp at h <;> simp [← h]

/-- A write keeps the canonical form. -/
theorem memoryWf_write (m : List Host.Cell) (a : Nat) (v : Byte) (h : memoryWf m = true) :
    memoryWf (memoryWrite m a v) = true := by
  induction m with
  | nil => rfl
  | cons c rest ih =>
    obtain ⟨k, w⟩ := c
    rw [memoryWf_cons] at h
    unfold memoryWrite
    split
    · simp_all [memoryWf_cons]
    · split
      · next e => subst e; rw [memoryWf_cons]; exact h
      · rw [memoryWf_cons]
        refine ⟨fun c hc => ?_, ih h.2⟩
        rcases memoryWrite_head _ _ _ _ hc with e | e
        · omega
        · obtain ⟨d, hd, he⟩ := Option.map_eq_some_iff.mp e
          have := h.1 d hd
          omega

theorem memoryWf_writeAll (vs : List Byte) (m : List Host.Cell) (a : Nat) (h : memoryWf m = true) :
    memoryWf (memoryWriteAll m a vs) = true := by
  induction vs generalizing m a with
  | nil => exact h
  | cons v vs ih => exact ih _ _ (memoryWf_write m a v h)

/-- The memory right after reset has the canonical form. -/
theorem memoryWf_reset : memoryWf State.reset.memory = true := rfl

end Sys2Proof.Machine
end

