-- ==== Sys2Proof/WellFormed.lean ====
section
/-! DEFINITION. Which commands the sender can form. The machine gives every command a meaning, ill-formed ones too
(log entry 17); these checks say which rows the spec's own words cover. -/

namespace Sys2Proof

/-- A write access is the row that `instrOfWrite` gives it: REGISTER_WRITE is not a write to COMMAND, TX_CHAR or EVT_POP
(R164), UNKNOWN_COMMAND carries an undefined code (R167), a finished image read brings 272 bytes (R149), and a save write
has at most ten bytes (R149). -/
def wellFormed : Instr → Bool
  | .unknownCommand code => (commandOfCode code).isNone
  | .registerWrite offset _ => offset != 0x04#5 && offset != 0x10#5 && offset != 0x1C#5
  | .imageReadDone (.finished image) => image.length == Config.imageSize
  | .imageReadDone (.notAcknowledged _) => true
  | .saveByteNotAcknowledged byte => decide (byte < 10)
  | .resetPin | .resetPart | .openLine | .closeLine | .queryLine | .setFormat | .setTiming | .setFlow | .setQuota
  | .sendBreak | .flush | .connect | .release | .setPart | .standingPut | .standingArm | .standingDisarm
  | .standingDrop | .queryStanding | .save | .reload => true
  | .rxChar | .txChar _ | .partStatus | .evtPop _ => true
  | .frameComplete _ _ _ _ | .markWaitDone _ | .breakEnd _ | .hldiChange _ _ | .readyRecognition _
  | .itemFinished _ | .breakTimerExpiry _ | .answerTimerExpiry _ | .idleTimerExpiry _ | .drainTimerExpiry _
  | .silenceTimerExpiry _ => true
  | .pollAcknowledged | .writePollExpiry | .readySample _ | .startBit _ _ | .resetPinAsserted | .saveWriteComplete => true

end Sys2Proof
end

