-- ==== Sys2Proof/Laws/PerInstr.lean ====
section
/-! SUPPORT. Per command: a write access of the host never spells an ill-formed command, so the rows REGISTER_WRITE and
UNKNOWN_COMMAND overlap no other row (R164, R167). -/

namespace Sys2Proof.Laws

/-- The offsets of the writes with rows of their own. -/
theorem offset_of_toNat {offset : BitVec 5} {k : Nat} (h : offset.toNat = k) : offset = BitVec.ofNat 5 k := by
  rw [← h]; simp

/-- A write access gives a well-formed command. -/
theorem instrOfWrite_wellFormed (offset : BitVec 5) (value : Byte) : wellFormed (instrOfWrite offset value) = true := by
  unfold instrOfWrite
  split
  · split
    · rename_i c _
      cases c <;> rfl
    · rename_i h
      simp [wellFormed, h]
  · rfl
  · rfl
  · rename_i h1 h2 h3
    have n1 : offset ≠ 0x04#5 := fun e => h1 (by rw [e]; rfl)
    have n2 : offset ≠ 0x10#5 := fun e => h2 (by rw [e]; rfl)
    have n3 : offset ≠ 0x1C#5 := fun e => h3 (by rw [e]; rfl)
    simp [wellFormed, n1, n2, n3]

/-- Every write access that is this command makes it well formed. -/
def WriteForms.Statement (i : Instr) : Prop :=
  ∀ (offset : BitVec 5) (value : Byte), instrOfWrite offset value = i → wellFormed i = true

theorem writeForms (i : Instr) : WriteForms.Statement i :=
  fun offset value h => h ▸ instrOfWrite_wellFormed offset value

theorem WriteForms.resetPin : WriteForms.Statement (.resetPin) := writeForms _
theorem WriteForms.resetPart : WriteForms.Statement (.resetPart) := writeForms _
theorem WriteForms.openLine : WriteForms.Statement (.openLine) := writeForms _
theorem WriteForms.closeLine : WriteForms.Statement (.closeLine) := writeForms _
theorem WriteForms.queryLine : WriteForms.Statement (.queryLine) := writeForms _
theorem WriteForms.setFormat : WriteForms.Statement (.setFormat) := writeForms _
theorem WriteForms.setTiming : WriteForms.Statement (.setTiming) := writeForms _
theorem WriteForms.setFlow : WriteForms.Statement (.setFlow) := writeForms _
theorem WriteForms.setQuota : WriteForms.Statement (.setQuota) := writeForms _
theorem WriteForms.sendBreak : WriteForms.Statement (.sendBreak) := writeForms _
theorem WriteForms.flush : WriteForms.Statement (.flush) := writeForms _
theorem WriteForms.connect : WriteForms.Statement (.connect) := writeForms _
theorem WriteForms.release : WriteForms.Statement (.release) := writeForms _
theorem WriteForms.setPart : WriteForms.Statement (.setPart) := writeForms _
theorem WriteForms.standingPut : WriteForms.Statement (.standingPut) := writeForms _
theorem WriteForms.standingArm : WriteForms.Statement (.standingArm) := writeForms _
theorem WriteForms.standingDisarm : WriteForms.Statement (.standingDisarm) := writeForms _
theorem WriteForms.standingDrop : WriteForms.Statement (.standingDrop) := writeForms _
theorem WriteForms.queryStanding : WriteForms.Statement (.queryStanding) := writeForms _
theorem WriteForms.save : WriteForms.Statement (.save) := writeForms _
theorem WriteForms.reload : WriteForms.Statement (.reload) := writeForms _
theorem WriteForms.unknownCommand (code : Byte) : WriteForms.Statement (.unknownCommand code) := writeForms _
theorem WriteForms.rxChar : WriteForms.Statement (.rxChar) := writeForms _
theorem WriteForms.txChar (value : Byte) : WriteForms.Statement (.txChar value) := writeForms _
theorem WriteForms.partStatus : WriteForms.Statement (.partStatus) := writeForms _
theorem WriteForms.evtPop (value : Byte) : WriteForms.Statement (.evtPop value) := writeForms _
theorem WriteForms.registerWrite (offset : BitVec 5) (value : Byte) : WriteForms.Statement (.registerWrite offset value) := writeForms _
theorem WriteForms.frameComplete (line : LineNo) (data : Byte) (parity : Bool) (stop : Bool) : WriteForms.Statement (.frameComplete line data parity stop) := writeForms _
theorem WriteForms.markWaitDone (line : LineNo) : WriteForms.Statement (.markWaitDone line) := writeForms _
theorem WriteForms.breakEnd (line : LineNo) : WriteForms.Statement (.breakEnd line) := writeForms _
theorem WriteForms.hldiChange (line : LineNo) (level : Bool) : WriteForms.Statement (.hldiChange line level) := writeForms _
theorem WriteForms.readyRecognition (line : LineNo) : WriteForms.Statement (.readyRecognition line) := writeForms _
theorem WriteForms.itemFinished (line : LineNo) : WriteForms.Statement (.itemFinished line) := writeForms _
theorem WriteForms.breakTimerExpiry (line : LineNo) : WriteForms.Statement (.breakTimerExpiry line) := writeForms _
theorem WriteForms.answerTimerExpiry (line : LineNo) : WriteForms.Statement (.answerTimerExpiry line) := writeForms _
theorem WriteForms.idleTimerExpiry (line : LineNo) : WriteForms.Statement (.idleTimerExpiry line) := writeForms _
theorem WriteForms.drainTimerExpiry (line : LineNo) : WriteForms.Statement (.drainTimerExpiry line) := writeForms _
theorem WriteForms.silenceTimerExpiry (line : LineNo) : WriteForms.Statement (.silenceTimerExpiry line) := writeForms _
theorem WriteForms.imageReadDone (how : ReadEnd) : WriteForms.Statement (.imageReadDone how) := writeForms _
theorem WriteForms.pollAcknowledged : WriteForms.Statement (.pollAcknowledged) := writeForms _
theorem WriteForms.saveByteNotAcknowledged (byte : Nat) : WriteForms.Statement (.saveByteNotAcknowledged byte) := writeForms _
theorem WriteForms.writePollExpiry : WriteForms.Statement (.writePollExpiry) := writeForms _
theorem WriteForms.readySample (levels : Byte) : WriteForms.Statement (.readySample levels) := writeForms _
theorem WriteForms.startBit (line : LineNo) (sample : StartSample) : WriteForms.Statement (.startBit line sample) := writeForms _
theorem WriteForms.resetPinAsserted : WriteForms.Statement (.resetPinAsserted) := writeForms _
theorem WriteForms.saveWriteComplete : WriteForms.Statement (.saveWriteComplete) := writeForms _

end Sys2Proof.Laws
end

