-- ==== Sys2Proof/Laws/Store.lean ====
section
/-! SUPPORT. The Queue Store: what an append, a removal and a discard can do, said once, and that each keeps a queue's shape
(R20 to R28). -/

namespace Sys2Proof.Machine

theorem State.grantable_freeList {s : State} {q : QueueId} (h : s.grantable q = true) :
    ∃ cell rest, s.freeList = cell :: rest := by
  cases hf : s.freeList with
  | nil => simp [State.grantable, State.freeCount, hf] at h
  | cons a l => exact ⟨a, l, rfl⟩

/-- An append is accepted exactly when the tail cell has room or a cell is granted (R23). -/
theorem State.append_isSome_iff (s : State) (q : QueueId) (e : Entry) : (s.append q e).isSome = true ↔ s.Accepts q := by
  unfold State.append State.Accepts
  simp only
  split
  · rename_i h; simp [h]
  · rename_i h
    split
    · rename_i hg
      obtain ⟨cell, rest, hf⟩ := State.grantable_freeList hg
      simp [hf, hg]
    · rename_i hg; simp [h, hg]

theorem State.append_eq_none_iff (s : State) (q : QueueId) (e : Entry) : s.append q e = none ↔ ¬ s.Accepts q := by
  rw [← State.append_isSome_iff s q e]; cases s.append q e <;> simp

/-- Everything an accepted append does (R23): the entry joins at the tail, and either no cell moves or the cell that has been free
longest becomes the new tail cell. -/
theorem State.append_some {s t : State} {q : QueueId} {e : Entry} (h : s.append q e = some t) :
    (0 < (s.queue q).tailRoom ∧ t = s.setQueue q { s.queue q with entries := (s.queue q).entries ++ [e] }) ∨
    ((s.queue q).tailRoom = 0 ∧ s.grantable q = true ∧ ∃ cell rest, s.freeList = cell :: rest ∧
      t = (s.withFree rest).setQueue q
        { s.queue q with chain := (s.queue q).chain ++ [cell], entries := (s.queue q).entries ++ [e]
                         headPos := if (s.queue q).held = 0 then 0 else (s.queue q).headPos }) := by
  unfold State.append at h
  simp only at h
  split at h
  · rename_i hr; exact .inl ⟨hr, by simpa using h.symm⟩
  · rename_i hr
    split at h
    · rename_i hg
      obtain ⟨cell, rest, hf⟩ := State.grantable_freeList hg
      rw [hf] at h
      exact .inr ⟨by omega, hg, cell, rest, hf, by simpa using h.symm⟩
    · cases h

/-- A queue that fits its cells, in the terms of `Queue.Shape`. -/
theorem Queue.shape_append {v : Queue} (h : v.Shape) (e : Entry) (hr : 0 < v.tailRoom) :
    ({ v with entries := v.entries ++ [e] } : Queue).Shape := by
  obtain ⟨h1, h2, h3⟩ := h
  have hc : v.chain ≠ [] := by
    intro hc
    obtain ⟨ha, hb⟩ := h2 hc
    simp [Queue.tailRoom, Queue.held, hc, Queue.occupancy, ha, hb] at hr
  obtain ⟨ha, hb, hd⟩ := h3 hc
  refine ⟨h1, fun c => absurd c hc, fun _ => ⟨by simp, ?_, ?_⟩⟩ <;>
    simp only [Queue.tailRoom, Queue.held, Queue.occupancy, List.length_append, List.length_cons, List.length_nil,
      Config.cellSize] at * <;> omega

theorem Queue.shape_grant {v : Queue} (h : v.Shape) (e : Entry) (cell : Nat) (hr : v.tailRoom = 0) :
    ({ v with chain := v.chain ++ [cell], entries := v.entries ++ [e]
              headPos := if v.held = 0 then 0 else v.headPos } : Queue).Shape := by
  obtain ⟨h1, h2, h3⟩ := h
  refine ⟨?_, fun c => by simp at c, fun _ => ⟨by simp, ?_, ?_⟩⟩
  · dsimp only; split
    · simp [Config.cellSize]
    · exact h1
  all_goals
    by_cases hc : v.chain = []
    · obtain ⟨ha, hb⟩ := h2 hc
      simp [Queue.held, Queue.occupancy, hc, hb, Config.cellSize]
    · obtain ⟨ha, hb, hd⟩ := h3 hc
      have hl : v.chain.length ≠ 0 := by simpa using hc
      simp only [Queue.tailRoom, Queue.held, Queue.occupancy, List.length_append, List.length_cons, List.length_nil,
        Config.cellSize, hl, if_false] at *
      omega

/-- A shape is kept by an accepted append, whose cells and entries are one queue's (R21, R23). -/
theorem State.append_shape {s t : State} {q : QueueId} {e : Entry} (h : s.append q e = some t) (hs : (s.queue q).Shape) :
    (t.queue q).Shape := by
  obtain ⟨hr, rfl⟩ | ⟨hr, hg, cell, rest, hf, rfl⟩ := State.append_some h
  · simpa using Queue.shape_append hs e hr
  · simpa using Queue.shape_grant hs e cell hr

theorem State.append_samePool {s t : State} {q : QueueId} {e : Entry} (h : s.append q e = some t) : s.SamePool t q := by
  obtain ⟨hr, rfl⟩ | ⟨hr, hg, cell, rest, hf, rfl⟩ := State.append_some h
  · simp [State.SamePool, State.freeCount, Queue.held]
  · simp [State.SamePool, State.freeCount, Queue.held, hf]; omega

/-- A removal from an empty queue removes nothing (R26). -/
theorem State.removeOldest_of_nil {s : State} {q : QueueId} (h : (s.queue q).entries = []) : s.removeOldest q = none := by
  simp [State.removeOldest, h]

/-- Everything a single removal does (R26, R27): the oldest entry leaves, and a cell that no entry can be read from any more joins
the free list at its end. -/
theorem State.removeOldest_of_cons {s : State} {q : QueueId} {e : Entry} {rest : List Entry}
    (h : (s.queue q).entries = e :: rest) (hs : (s.queue q).Shape) :
    ∃ v free, s.removeOldest q = some (e, (s.withFree free).setQueue q v) ∧ v.entries = rest ∧
      v.reserve = (s.queue q).reserve ∧ v.limit = (s.queue q).limit ∧ v.Shape ∧
      free.length + v.held = s.freeList.length + (s.queue q).held ∧
      (free = s.freeList ∨ ∃ cell, free = s.freeList ++ [cell]) := by
  obtain ⟨h1, h2, h3⟩ := hs
  have hc : (s.queue q).chain ≠ [] := fun c => by simp [(h2 c).2] at h
  obtain ⟨ha, hb, hd⟩ := h3 hc
  have hl : (s.queue q).chain.length ≠ 0 := by simpa using hc
  simp only [Queue.held, Queue.occupancy, h, List.length_cons, Config.cellSize] at hb hd h1
  unfold State.removeOldest
  simp only [h]
  by_cases hr : rest = []
  · subst hr
    have hone : (s.queue q).chain.length = 1 := by simp at *; omega
    obtain ⟨cell, hcell⟩ := List.length_eq_one_iff.mp hone
    refine ⟨{ s.queue q with chain := [], headPos := 0, entries := [] }, s.freeList ++ (s.queue q).chain, by simp, rfl, rfl,
      rfl, ⟨by simp [Config.cellSize], by simp, by simp⟩, by simp [Queue.held], .inr ⟨cell, by rw [hcell]⟩⟩
  · by_cases hp : (s.queue q).headPos + 1 = Config.cellSize
    · have hp' : (s.queue q).headPos = 15 := by simp only [Config.cellSize] at hp; omega
      obtain ⟨cell, more, hcell⟩ := List.exists_cons_of_ne_nil hc
      have hmore : more ≠ [] := by
        rintro rfl
        rw [hcell, hp'] at hd
        simp only [List.length_cons, List.length_nil] at hd
        exact hr (List.length_eq_zero_iff.mp (by omega))
      have hm0 : 0 < more.length := List.length_pos_iff.mpr hmore
      rw [hcell, hp'] at hb hd
      simp only [List.length_cons] at hb hd
      refine ⟨{ s.queue q with chain := (s.queue q).chain.drop 1, headPos := 0, entries := rest },
        s.freeList ++ (s.queue q).chain.take 1, by simp [hr, hp], rfl, rfl, rfl, ?_, ?_, .inr ⟨cell, by simp [hcell]⟩⟩
      · refine ⟨by simp [Config.cellSize], fun c => by simp [hcell] at c; exact absurd c hmore, fun _ => ⟨hr, ?_, ?_⟩⟩ <;>
          simp only [Queue.held, Queue.occupancy, hcell, List.drop_one, List.tail_cons, Config.cellSize] <;> omega
      · simp only [Queue.held, hcell, List.take_succ_cons, List.take_zero, List.length_append, List.length_cons,
          List.length_nil, List.drop_one, List.tail_cons]; omega
    · refine ⟨{ s.queue q with headPos := (s.queue q).headPos + 1, entries := rest }, s.freeList, ?_, rfl, rfl, rfl, ?_,
        rfl, .inl rfl⟩
      · simp only [hr, hp, if_false]
        rfl
      · simp only [Config.cellSize] at hp
        refine ⟨by simp only [Config.cellSize]; omega, fun c => absurd c hc, fun _ => ⟨hr, ?_, ?_⟩⟩ <;>
          simp only [Queue.held, Queue.occupancy, Config.cellSize] at * <;> omega

/-- A discard leaves the queue empty and returns its chain in order (R28). -/
theorem State.discard_eq (s : State) (q : QueueId) : s.discard q =
    (s.withFree (s.freeList ++ (s.queue q).chain)).setQueue q
      { s.queue q with chain := [], headPos := 0, entries := [] } := rfl

theorem Queue.shape_discarded (v : Queue) : ({ v with chain := [], headPos := 0, entries := [] } : Queue).Shape :=
  ⟨by simp [Config.cellSize], by simp, by simp⟩

end Sys2Proof.Machine
end

