-- ==== Sys2Proof/Laws/Terms.lean ====
section
/-! SUPPORT. The operations of the Queue Store, the Hold Logic, the transmitter and the Standing List in the terms of the
statements (Safety.lean): what each of them comes to, said once. -/

namespace Sys2Proof.Machine

/-! ### Queues and the Hold Logic -/

theorem State.withFree_self (s : State) : s.withFree s.freeList = s := rfl

theorem State.setQueue_tq (s : State) (n : LineNo) (v : Queue) : s.setQueue (.tq n) v = s.modLine n fun l => { l with tq := v } :=
  rfl

theorem State.setQueue_rq (s : State) (n : LineNo) (v : Queue) : s.setQueue (.rq n) v = s.modLine n fun l => { l with rq := v } :=
  rfl

/-- An accepted append leaves the queue with the entry and the free list without the granted cell (R20, R23). -/
theorem State.append_eq_withEntry {s t : State} {q : QueueId} {e : Entry} (h : s.append q e = some t) :
    t = (s.withFree ((s.queue q).freeAfter s.freeList)).setQueue q ((s.queue q).withEntry s.freeList e) := by
  obtain ⟨hr, rfl⟩ | ⟨hr, -, cell, rest, hf, rfl⟩ := State.append_some h
  · simp [Queue.freeAfter, Queue.withEntry, hr, State.withFree_self]
  · simp [Queue.freeAfter, Queue.withEntry, hr, hf, Queue.held]

/-- A single removal leaves the queue without its oldest entry and the free list with the cells it returns (R26, R27). -/
theorem State.removeOldest_eq {s : State} {q : QueueId} {e : Entry} {rest : List Entry}
    (h : (s.queue q).entries = e :: rest) : s.removeOldest q =
      some (e, (s.withFree (s.freeList ++ (s.queue q).returned)).setQueue q (s.queue q).withoutOldest) := by
  unfold State.removeOldest Queue.returned Queue.withoutOldest
  simp only [h]
  by_cases hr : rest = []
  · simp [hr]
  · by_cases hp : (s.queue q).headPos = 15
    · simp [hr, hp, Config.cellSize]
    · simp [hr, hp, Config.cellSize, State.withFree_self]

theorem State.discard_eq_emptied (s : State) (q : QueueId) :
    s.discard q = (s.withFree (s.freeList ++ (s.queue q).chain)).setQueue q (s.queue q).emptied := rfl

/-- The receive destination of a line is TQ n exactly while the line is BRIDGED to n (R42). -/
theorem State.destination_eq_tq_iff (s : State) (x n : LineNo) :
    s.destination x = .tq n ↔ (s.line x).state = .bridged ∧ (s.line x).conn.map (·.peer) = some n := by
  unfold State.destination
  split <;> simp_all

/-- A change of TQ n is told to the Hold Logic of the line that feeds it (R30, R42, R44). -/
theorem State.tellHold_tq (s : State) (n : LineNo) : s.tellHold (.tq n) = s.feederSees n := by
  unfold State.tellHold State.feederSees State.holdNeighbour
  cases hc : (s.line n).conn with
  | none => simp only [hc]
  | some d =>
    simp only [hc]
    by_cases hd : s.destination d.peer = .tq n
    · rw [if_pos hd, if_pos ((State.destination_eq_tq_iff s d.peer n).mp hd)]
      dsimp only
      rw [State.holdEval_eq, hd]; rfl
    · rw [if_neg hd, if_neg fun h => hd ((State.destination_eq_tq_iff s d.peer n).mpr h)]

/-- A change of RQ n is told to the Hold Logic of the line itself while it is not BRIDGED (R30, R42, R44). -/
theorem State.tellHold_rq {s : State} {n : LineNo} (h : (s.line n).state ≠ .bridged) :
    s.tellHold (.rq n) = s.modLine n fun l => l.afterOccupancy (s.line n).rq.entries.length := by
  rw [State.tellHold_of_some (State.holdNeighbour_rq_of_ne h), State.destination_of_ne h]; rfl

/-- An accepted append to a TQ, told to its feeder, is what the statements call stored. -/
theorem State.append_tellHold_eq_stored {s t : State} {n : LineNo} {e : Entry} (h : s.append (.tq n) e = some t) :
    t.tellHold (.tq n) = s.stored n e := by
  rw [State.append_eq_withEntry h, State.tellHold_tq]
  rfl

/-! ### Transmitters -/

theorem beginEntry_eq_begins (e : Entry) (l : Line) : beginEntry e l = l.begins e := by
  unfold beginEntry Line.begins
  cases hk : e.kind <;> simp [startTimer, ← BitVec.toNat_inj]

theorem State.beginCode_eq_codeBegun {s : State} {n : LineNo} (h : (s.line n).tx = .idle)
    (hc : (s.line n).codePending = true) : s.beginCode n = s.codeBegun n := by
  simp only [State.beginCode, h, hc, State.codeBegun, Line.codeValue, announceOf_eq, beq_self_eq_true, Bool.and_self, if_true]

/-- The transmitter's beginning of its oldest entry; an emptied TQ is told on (R9, R26, R30). -/
theorem State.beginOldest_eq {s : State} {n : LineNo} {e : Entry} {rest : List Entry}
    (h : (s.line n).tq.entries = e :: rest) : s.beginOldest n =
      if ((s.begun n e).line n).tq.entries = [] then (s.begun n e).tqEmptied n else s.begun n e := by
  have hb : (((s.withFree (s.freeList ++ (s.line n).tq.returned)).setQueue (.tq n)
      (s.line n).tq.withoutOldest).modLine n (beginEntry e)).tellHold (.tq n) = s.begun n e := by
    rw [State.setQueue_tq, State.modLine_modLine, State.tellHold_tq]
    unfold State.begun
    congr 1
    exact State.modLine_congr (beginEntry_eq_begins ..)
  unfold State.beginOldest
  rw [State.removeOldest_eq (q := .tq n) h]
  dsimp only [State.queue]
  simp only [hb, List.isEmpty_iff]

/-- An idle transmitter begins as the statements say; an entry begun that empties its TQ is then told on (R9, R30). -/
theorem State.kickTx_eq (s : State) (n : LineNo) : s.kickTx n =
    if (s.line n).tx = .idle ∧ (s.line n).codePending = false ∧ (s.line n).outputHeld = false ∧
        (s.line n).tq.entries ≠ [] ∧ ((s.mayBegin n).line n).tq.entries = [] then (s.mayBegin n).tqEmptied n
    else s.mayBegin n := by
  unfold State.mayBegin
  by_cases ht : (s.line n).tx = .idle
  · by_cases hc : (s.line n).codePending = true
    · simp [State.kickTx, ht, hc, State.beginCode_eq_codeBegun]
    · simp only [Bool.not_eq_true] at hc
      by_cases ho : (s.line n).outputHeld = true
      · simp [State.kickTx, ht, hc, ho]
      · simp only [Bool.not_eq_true] at ho
        cases he : (s.line n).tq.entries with
        | nil => simp [State.kickTx_of_empty hc he, ht, hc, ho]
        | cons e rest => simp [State.kickTx, ht, hc, ho, State.beginOldest_eq he]
  · simp [State.kickTx, ht]

/-! ### The Standing List -/

theorem State.establishable_iff (s : State) (c : Contents) : s.establishable c = true ↔ s.Conditions c := by
  simp only [State.establishable, Bool.and_eq_true, beq_iff_eq, List.isEmpty_iff, State.Conditions]
  constructor
  · rintro ⟨⟨⟨⟨⟨h1, h2⟩, h3⟩, h4⟩, h5⟩, h6⟩ n (rfl | rfl) <;> simp_all
  · intro h
    have ha := h _ (.inl rfl); have hb := h _ (.inr rfl)
    simp_all

theorem reserves_armed {c : Contents} {n : LineNo} : reserves (.armed c) n = true ↔ c.lineA = n ∨ c.lineB = n := by
  simp [reserves, reservedLines]

theorem startedMonitor_eq (c : Connection) : startedMonitor c = unmatched c.guardTime := by
  simp only [startedMonitor, unmatched, startTimer]
  split
  · rfl
  · rename_i h
    rw [if_neg]
    simpa [← BitVec.toNat_inj] using h

theorem idleTimer_eq (limit : Byte) : startTimer (limit.toNat * Config.ticksPerMinute) = idleTimerOf limit := by
  simp [startTimer, idleTimerOf, Config.ticksPerMinute, ← BitVec.toNat_inj]

theorem monitorAtStart_eq (c : Connection) :
    (if c.escCount ≠ 0 ∧ c.monitorFlag = true then startedMonitor c else .offValue) = monitorAtStart c := by
  unfold monitorAtStart
  rw [startedMonitor_eq]
  by_cases h : c.escCount = 0 <;> cases hm : c.monitorFlag <;> simp [h, Monitor.offValue]

/-- A caller whose optional parts are written goes to BRIDGED, with its idle timer started (R82, R99, R141). -/
theorem Line.bridgedOn_of_conn {l : Line} {c : Connection} (k : Nat) (h : l.conn = some c) :
    ({ ({ l with state := .bridged, idleTimer := idleStart l } : Line).afterOccupancy k with monitor := monitorAtStart c } : Line) =
      { l.bridgedOn c k with idleTimer := idleTimerOf c.idleLimit } := by
  by_cases h1 : 8 * l.hold.highMark.toNat ≤ k <;> by_cases h2 : k ≤ 8 * l.hold.lowMark.toNat <;>
    simp only [Line.bridgedOn, Line.afterOccupancy, Line.heldAt, h1, h2, if_true, if_false, idleStart, h, idleTimer_eq] <;>
    split <;> simp

/-- A called line whose optional parts are written goes to BRIDGED (R82, R141). -/
theorem Line.bridgedOn_of_conn_called {l : Line} {c : Connection} (k : Nat) (h : l.conn = some c) :
    ({ ({ l with state := .bridged } : Line).afterOccupancy k with monitor := monitorAtStart c } : Line) = l.bridgedOn c k := by
  cases l
  simp only at h
  subst h
  rfl

/-- Two lines whose optional parts name each other become BRIDGED (R82 steps 2 to 6, R141 steps 1 and 3 to 6). -/
theorem State.bridge_eq {s : State} {x y : LineNo} {c d : Connection} (hxy : x ≠ y) (hx : (s.line x).conn = some c)
    (hy : (s.line y).conn = some d) (hc : c.peer = y) (hd : d.peer = x) : s.bridge x y =
      (s.modLine x fun l => { l.bridgedOn c (s.line y).tq.entries.length with idleTimer := idleTimerOf c.idleLimit }).modLine y
        fun l => l.bridgedOn d (s.line x).tq.entries.length := by
  have hyx := hxy.symm
  unfold State.bridge State.startMonitor
  simp only [State.holdEval_eq]
  apply State.ext_lines
  · intro n
    by_cases h1 : n = x
    · subst h1
      simp only [State.line_modLine_same, State.line_modLine_other _ _ hxy, State.line_modLine_other _ _ hyx,
        State.destination, hx, hc, State.queue, Queue.occupancy, Line.afterOccupancy_conn, monitorAtStart_eq]
      rw [← Line.bridgedOn_of_conn _ hx]
      simp only [hx, Line.afterOccupancy_conn]
    · by_cases h2 : n = y
      · subst h2
        simp only [State.line_modLine_same, State.line_modLine_other _ _ hxy, State.line_modLine_other _ _ hyx,
          State.destination, hy, hd, State.queue, Queue.occupancy, Line.afterOccupancy_conn, Line.afterOccupancy_tq,
          monitorAtStart_eq]
        rw [← Line.bridgedOn_of_conn_called _ hy]
        simp only [hy, Line.afterOccupancy_conn, Line.afterOccupancy_tq]
      · simp only [State.line_modLine_other _ _ h1, State.line_modLine_other _ _ h2]
  all_goals rfl

/-- An establishment whose conditions hold leaves the connection that the statements spell out (R141). -/
theorem State.establish_eq {s : State} {i : SlotNo} {c : Contents} (hab : c.lineA ≠ c.lineB) (h : s.Conditions c) :
    s.establish i c = s.withConnection i c := by
  obtain ⟨-, ha, -⟩ := h _ (.inl rfl)
  obtain ⟨-, hb, -⟩ := h _ (.inr rfl)
  have hba := hab.symm
  unfold State.establish
  rw [State.bridge_eq hab (c := standingPart c i .caller) (d := standingPart c i .called)
    (by simp [State.line_modLine_other _ _ hab]) (by simp) rfl rfl]
  rw [State.modLine_comm _ hba, State.modLine_modLine, State.modLine_modLine]
  simp only [State.line_modLine_same, State.line_modLine_other _ _ hab, State.line_modLine_other _ _ hba, ha, hb]
  rfl

/-- The evaluation that a change on a line brings, as the statements put it (R140, R141). -/
theorem State.evaluateLine_evaluated (s : State) (n : LineNo) : s.Evaluated (s.evaluateLine n) n := by
  have visit : ∀ (t : State) (i : SlotNo), (∀ c, t.record i = .armed c → c.lineA = n ∨ c.lineB = n → ¬ t.Conditions c) →
      (if reserves (t.record i) n then t.evaluateSlot i else t) = t := by
    intro t i h
    cases hr : t.record i with
    | armed c =>
      by_cases hn : c.lineA = n ∨ c.lineB = n
      · have := h c hr hn
        rw [← State.establishable_iff] at this
        simp [State.evaluateSlot, hr, this]
      · rw [if_neg (fun h => hn (reserves_armed.mp h))]
    | empty => simp [State.evaluateSlot, hr]
    | idle c => simp [State.evaluateSlot, hr]
    | active c => simp [State.evaluateSlot, hr]
  constructor
  · intro h
    simp only [State.evaluateLine, allSlots, List.foldl_cons, List.foldl_nil, visit s _ (h _)]
  · intro i c hi hn hab hothers hc
    have here : (if reserves (s.record i) n then s.evaluateSlot i else s) = s.withConnection i c := by
      rw [if_pos (by rw [hi]; exact reserves_armed.mpr hn), State.evaluateSlot, hi]
      dsimp only
      rw [if_pos ((State.establishable_iff s c).mpr hc), State.establish_eq hab hc]
    have before : ∀ j, j ≠ i → (if reserves (s.record j) n then s.evaluateSlot j else s) = s := by
      intro j hj; simp [hothers j hj]
    have later : ∀ j, j ≠ i → (if reserves ((s.withConnection i c).record j) n then (s.withConnection i c).evaluateSlot j
        else s.withConnection i c) = s.withConnection i c := by
      intro j hj
      have : (s.withConnection i c).record j = s.record j := State.record_setRecord_other _ _ hj
      simp [this, hothers j hj]
    simp only [State.evaluateLine, allSlots, List.foldl_cons, List.foldl_nil]
    obtain rfl | rfl | rfl | rfl : i = 0 ∨ i = 1 ∨ i = 2 ∨ i = 3 :=
      (by decide : ∀ i : SlotNo, i = 0 ∨ i = 1 ∨ i = 2 ∨ i = 3) i
    · rw [here, later 1 (by decide), later 2 (by decide), later 3 (by decide)]
    · rw [before 0 (by decide), here, later 2 (by decide), later 3 (by decide)]
    · rw [before 0 (by decide), before 1 (by decide), here, later 3 (by decide)]
    · rw [before 0 (by decide), before 1 (by decide), before 2 (by decide), here]

/-! ### The external memory's bus -/

theorem sentBytes_append (a b : List BusAction) : sentBytes (a ++ b) = sentBytes a ++ sentBytes b := by
  simp [sentBytes]

theorem sentBytes_sends (bs : List Byte) : sentBytes (bs.map BusAction.send) = bs := by
  induction bs with
  | nil => rfl
  | cons b bs ih => simpa [sentBytes, BusAction.sent] using ih

/-- The bytes that a save's write sends: the device select byte, the address byte and the data (R149, R160). -/
theorem sentBytes_writing {p : MemoryPort} (h : p.bus = .writing) :
    sentBytes p.driving = saveWriteBytes p.snapshot (p.writesMade + 1) := by
  have ht : sentBytes (saveTransfer p.snapshot (p.writesMade + 1)) = saveWriteBytes p.snapshot (p.writesMade + 1) := by
    rw [saveTransfer, List.cons_append, ← List.singleton_append, sentBytes_append, sentBytes_append, sentBytes_sends]
    exact List.append_nil _
  rw [MemoryPort.driving, h]
  dsimp only
  rw [sentBytes_append, ht]
  split <;> rfl

/-- A byte sent most significant bit first is received as the same byte (R149). -/
theorem byteOfBits_byteBits (b : Byte) : byteOfBits (byteBits b) = b := by
  revert b; decide +kernel

@[simp] theorem readImage_length (m : List Host.Cell) (before : List Byte) : (readImage m before).length = Config.imageSize := by
  simp [readImage]

/-- An image read brings the memory's byte where the part has written one, and otherwise what was there before (R162). -/
theorem readImage_getElem? (m : List Host.Cell) (before : List Byte) (a : Nat) (h : a < Config.imageSize)
    (hb : before.length = Config.imageSize) : (readImage m before)[a]? = (memoryRead m a).or before[a]? := by
  have hl : a < before.length := by omega
  simp only [readImage, List.getElem?_map, List.getElem?_range h, Option.map_some, List.getD_eq_getElem?_getD,
    List.getElem?_eq_getElem hl]
  cases memoryRead m a <;> rfl

end Sys2Proof.Machine
end

