-- ==== Sys2Proof/Tests/Slice0.lean ====
section
/-! SUPPORT. Tests from the spec's worked examples and tables, one refused term for each check of WellFormed, and for each
statement with hypotheses a state and operands that meet them. -/

namespace Sys2Proof.Tests

open Sys2Proof.Machine

set_option Elab.async false

/-! ### States -/

/-- The part with its load ended and its first tick past; every line CLOSED. -/
def quiet : State :=
  { State.reset with port := { MemoryPort.resetValue with state := .idle, bus := .quiet }, firstTick := false }

/-- The state with P0 to P7 written. -/
def given (s : State) (ps : Vector Byte 8) : State := { s with host := { s.host with params := ps } }

/-- A line with its device present, attached to the host. -/
def attached (l : Line) : Line := { l with state := .host, rx := .idle [], ready := true }

/-- Lines 0 and 1 HOST. -/
def hosts : State := (quiet.modLine 0 attached).modLine 1 attached

/-- A DATA entry. -/
def char (v : Byte) : Entry := { kind := .data, value := v }

/-- A queue that holds entries in one cell. -/
def filled (cell : Nat) (es : List Entry) (q : Queue) : Queue := { q with chain := [cell], entries := es }

/-- The optional parts of an ordered connection with the escape character 2Bh, count 3 and a guard. -/
def parts (peer : LineNo) (role : Role) (guardTime : Byte) (action : BreakAction) : Connection :=
  { peer := peer, role := role, origin := .ordered, escChar := 0x2B, escCount := 3, guardTime := guardTime
    monitorFlag := role == .caller, breakAction := action, idleLimit := 30 }

/-- Line 0 calls line 1; line 1's device has not answered. -/
def calling : State :=
  (hosts.modLine 0 fun l => { l with state := .calling, conn := some (parts 1 .caller 0 .release), answerTimer := some 0 }).modLine
    1 fun l => { l with state := .offered, conn := some (parts 0 .called 0 .release), ready := false }

/-- Lines 0 and 1 BRIDGED, both transmitters busy, line 0's monitor in a state with its list. -/
def linked (guardTime : Byte) (action : BreakAction) (m : Monitor) : State :=
  (hosts.modLine 0 fun l =>
    { l with state := .bridged, conn := some (parts 1 .caller guardTime action), tx := .char 0x41 factoryFormat
             idleTimer := some 0, monitor := m }).modLine 1 fun l =>
      { l with state := .bridged, conn := some (parts 0 .called guardTime action), tx := .char 0x42 factoryFormat }

/-- The same with break action RELEASE. -/
def bridged (guardTime : Byte) (m : Monitor) : State := linked guardTime .release m

/-- A monitor in a state, with its held escape characters. -/
def monitor (state : MatcherState) (count : Nat) (silence : Timer) : Monitor :=
  { state := state, count := count, silence := silence, holding := List.replicate count (char 0x2B) }

/-- The state a command leaves. -/
def after (c : Instr) (s : State) : State :=
  match exec c s with
  | .next t => t
  | .fault _ => s
  | .refused _ => s

/-- An event queue of records with consecutive numbers, as a host leaves it unread. -/
def unread (count : Nat) : HostPort :=
  { HostPort.resetValue with
    events := (List.range count).map fun i =>
      { kind := .readyChange, line := 0, peer := 0xFF, info := 1, seq := BitVec.ofNat 8 i }
    nextSeq := BitVec.ofNat 8 count }

/-! ### WellFormed refuses what no sender forms -/

theorem test_unknown_command_with_a_defined_code_is_refused : wellFormed (.unknownCommand 0x5A) = false := by decide
theorem test_write_to_command_is_no_register_write : wellFormed (.registerWrite 0x04 0x01) = false := by decide
theorem test_write_to_tx_char_is_no_register_write : wellFormed (.registerWrite 0x10 0x41) = false := by decide
theorem test_write_to_evt_pop_is_no_register_write : wellFormed (.registerWrite 0x1C 0x00) = false := by decide
theorem test_short_image_is_refused : wellFormed (.imageReadDone (.finished [0x53])) = false := by decide
theorem test_eleventh_byte_of_a_write_is_refused : wellFormed (.saveByteNotAcknowledged 10) = false := by decide
theorem test_tenth_byte_of_a_write_is_formed : wellFormed (.saveByteNotAcknowledged 9) = true := by decide
theorem test_no_word_spells_a_command : decodeTableWord 8 0x5A = none := by decide

/-! ### Chapter 1 -/

/-- Chapter 1, worked example: value 41h at 7E1 is 1 0 0 0 0 0 1, parity 0, and C1h gives the same ten bits. -/
def format7E1 : Format := { dataBits := .seven, parity := .even, stopBits := .one, rate := 4 }

theorem test_frame_of_41h_at_7E1 :
    frameBits format7E1 0x41 = [false, true, false, false, false, false, false, true, false, true] := by decide
theorem test_frame_of_C1h_at_7E1 : frameBits format7E1 0xC1 = frameBits format7E1 0x41 := by decide
/-- R4: 110 bit/s in 8E2 has a character time of 12 bit times, 9600 bit/s in 8N1 of 10. -/
theorem test_character_times : characterBits { dataBits := .eight, parity := .even, stopBits := .two, rate := 0 } = 12 ∧
    characterBits factoryFormat = 10 := by decide
/-- R6, case 1: an all-spacing frame on an ODD-parity line is a break. -/
theorem test_break_on_odd_parity :
    (classify { factoryFormat with parity := .odd } 0x00 false false).kind = .brk := by decide
theorem test_parity_fault_is_an_error : classify format7E1 0x41 true true = { kind := .error, value := 0x41 } := by decide

/-- Chapter 1, worked example: with a grace of 3, the fourth differing sample is recognised. -/
def graced (count : Nat) : State :=
  hosts.modLine 5 fun l =>
    { attached l with ready := false, settings := { l.settings with readyGrace := 3 }, graceCount := count }

theorem test_third_sample_is_not_recognised : ((after (.readySample 0x20) (graced 2)).line 5).readyDue = .none := by decide
theorem test_fourth_sample_is_recognised : ((after (.readySample 0x20) (graced 3)).line 5).readyDue = .counted := by decide
theorem test_start_bit_enters_frame :
    ((after (.startBit 0 { changes := 0, level := false }) hosts).line 0).rx = .frame factoryFormat := by decide
/-- R5 and R12: a frame keeps the format of its start edge when SET_FORMAT comes between the edge and the eighth sample. -/
theorem test_format_of_the_start_edge : ((after (.startBit 1 { changes := 1, level := false })
    (after .setFormat (given hosts #v[1, 7, 1, 1, 4, 0, 0, 0]))).line 1).rx = .frame factoryFormat := by decide +kernel
theorem test_mark_wait_ends :
    ((after (.markWaitDone 2) (quiet.modLine 2 fun l => { l with rx := .waitMark factoryFormat })).line 2).rx = .idle [] := by
  decide
theorem test_break_wait_ends :
    ((after (.breakEnd 2) (quiet.modLine 2 fun l => { l with rx := .breakWait factoryFormat })).line 2).rx = .idle [] := by
  decide

/-- Chapter 1, worked example: a break of length 5 expires at the sixth tick that follows its start (R2). -/
theorem test_break_timer_counts_six_ticks : (beginEntry { kind := .brk, value := 0 }
    { Line.resetValue false with settings := { factorySettings with breakLength := 5 } }).breakTimer = some 6 := by decide

/-! ### Chapter 2 -/

/-- Chapter 2, worked example: after 40 writes to an output-held line, 3 cells are held and TX_ROOM reads 216. -/
def forty : State :=
  { hosts.modLine 2 (fun l => { attached l with
      hold := { factoryHold with method := .lines }, hldi := true
      tq := { factoryQueue with chain := [0, 1, 2], entries := List.replicate 40 (char 0x41) } }) with
    freeList := (List.range 128).drop 3, host := { HostPort.resetValue with lineSelect := 2 } }

theorem test_room_after_forty_writes : readRegister forty 0x11 = some 216 ∧ forty.unmetTotal = 30 ∧
    (forty.queue (.tq 2)).tailFill = 8 := by decide +kernel
/-- Chapter 2, worked example: the release of HLDI2 lets the transmitter begin removal 1; the head position is then 1. -/
theorem test_removal_after_hldi : (((after (.hldiChange 2 false) forty).line 2).tq.headPos,
    ((after (.hldiChange 2 false) forty).line 2).tq.occupancy) = (1, 39) := by decide +kernel
/-- Chapter 2, worked example 2, steps 6 and 7: 12 cells of reserve for an empty queue exceed the free count, and the same
reserve for a queue that holds 36 cells does not. -/
def pressed : State :=
  { hosts.modLine 1 (fun l => { l with rq := { l.rq with chain := List.range 36 } }) with freeList := (List.range 128).drop 100 }

theorem test_reserve_beyond_the_pool_is_refused :
    (after .setQuota (given pressed #v[6, 12, 16, 2, 16, 0, 0, 0])).host.result = .noQuota := by decide +kernel
theorem test_reserve_of_a_full_queue_is_accepted :
    (after .setQuota (given { pressed with freeList := List.range 31 } #v[1, 12, 64, 2, 16, 0, 0, 0])).host.result = .done := by
  decide +kernel

/-! ### Chapter 3 -/

/-- Chapter 3, worked example: at 32 entries of the peer's TQ and a high mark of 4, the pause code 13h is begun. -/
theorem test_pause_code_begins_at_the_mark : (Line.afterOccupancy { Line.resetValue false with
    hold := { factoryHold with method := .inband, highMark := 4, lowMark := 1 } } 32).tx = .flow 0x13 factoryFormat := by
  decide
theorem test_low_mark_equal_to_high_less_one_is_refused :
    (after .setFlow (given hosts #v[0, 2, 0x13, 0x11, 9, 8, 0, 0])).host.result = .badValue := by decide +kernel
theorem test_resume_code_clears_the_pause : ((after (.frameComplete 0 0x11 false true) (hosts.modLine 0 fun l =>
    { l with hold := { l.hold with method := .inband }, receivedPause := true, rx := .frame factoryFormat })).line 0).receivedPause
    = false := by decide +kernel

/-! ### Chapter 4 -/

/-- Chapter 4, worked example: A17 does not fit RQ4's one cell, sets the flag and posts OVERRUN(4, FFh, own RQ). -/
def crowded : State :=
  hosts.modLine 4 fun l => { attached l with rx := .frame factoryFormat
                                             rq := { filled 0 (List.replicate 16 (char 0x41)) l.rq with reserve := 1, limit := 1 } }

theorem test_overrun_is_reported : (after (.frameComplete 4 0x42 false true) crowded).host.events =
    [{ kind := .overrun, line := 4, peer := 0xFF, info := 0x00, seq := 0x00 }] := by decide +kernel
theorem test_second_overrun_is_silent : (after (.frameComplete 4 0x42 false true)
    (crowded.modLine 4 fun l => { l with overrun := true })).host.events = [] := by decide +kernel
theorem test_open_line : ((after .openLine (given quiet #v[7, 0, 0, 0, 0, 0, 0, 0])).line 7).state = .host := by decide +kernel
theorem test_open_line_8_is_refused :
    (after .openLine (given quiet #v[8, 0, 0, 0, 0, 0, 0, 0])).host.result = .badLine := by decide +kernel
theorem test_close_line : ((after .closeLine (given hosts #v[1, 0, 0, 0, 0, 0, 0, 0])).line 1).rx = .disabled := by
  decide +kernel
theorem test_query_line : (after .queryLine (given hosts #v[1, 9, 9, 9, 9, 9, 9, 9])).host.params =
    #v[0x01, 0xFF, 0, 0, 0, 0, 0x04, 0] := by decide +kernel

/-! ### Chapters 5 and 6 -/

/-- Chapter 5, first worked example: CONNECT with an answer time of 20 s starts the answer timer at 2,000 ticks. -/
theorem test_connect_starts_the_answer_timer : ((after .connect (given (hosts.modLine 1 fun l => { l with ready := false })
    #v[0, 1, 20, 0x2B, 3, 100, 0x01, 30])).line 0).answerTimer = some 2001 := by decide +kernel
/-- The same example: at the answer the idle timer starts at 180,000 ticks, and CONNECTED(caller, called, ORDERED) is posted. -/
def answered : State :=
  after (.readyRecognition 1) (calling.modLine 1 fun l => { l with readyDue := .counted, rdySample := true })

theorem test_answer_bridges : ((answered.line 0).idleTimer, answered.host.events) =
    (some 180001, [{ kind := .connected, line := 0, peer := 1, info := 0x00, seq := 0 }]) := by decide +kernel
/-- Chapter 5, second worked example: NO_ANSWER at the expiry. -/
theorem test_no_answer : (after (.answerTimerExpiry 0) calling).host.events =
    [{ kind := .callFailed, line := 0, peer := 1, info := 0x01, seq := 0 }] := by
  have h : after (.answerTimerExpiry 0) calling = calling.failCall 0 1 .noAnswer := rfl
  rw [h]
  unfold State.failCall
  dsimp only
  split <;> decide +kernel

/-- Chapter 6, worked example: at the drain timer's expiry the 90 entries left are discarded, and the tally is posted. -/
def draining : State :=
  { quiet.modLine 7 (fun l => { l with
      state := .draining, rx := .idle [], drainTimer := some 0
      tq := { factoryQueue with chain := [0, 1, 2, 3, 4, 5], entries := List.replicate 90 (char 0x41) } }) with
    freeList := (List.range 128).drop 6 }

theorem test_drain_limit_discards : ((after (.drainTimerExpiry 7) draining).host.events,
    ((after (.drainTimerExpiry 7) draining).line 7).state) =
    ([{ kind := .drained, line := 7, peer := 0xFF, info := 90, seq := 0 }], LineState.host) := by decide +kernel
theorem test_release_cuts_a_drain : (after .release (given draining #v[7, 0, 0, 0, 0, 0, 0, 0])).host.events =
    [{ kind := .drained, line := 7, peer := 0xFF, info := 90, seq := 0 }] := by decide +kernel
theorem test_idle_limit_releases : (after (.idleTimerExpiry 0) (bridged 0 Monitor.offValue)).host.events =
    [{ kind := .released, line := 0, peer := 1, info := 0x05, seq := 0 }] := by decide +kernel
theorem test_set_part : (after .setPart (given quiet #v[0xFF, 0, 0, 0, 0, 0, 0, 0])).drainLimit = 0xFF := by decide +kernel

/-! ### Chapter 7 -/

/-- Chapter 7, worked example: the third "+" is held and the monitor confirms. -/
def counted : State :=
  (bridged 100 (monitor .counting 2 (some 70))).modLine 0 fun l => { l with rx := .frame factoryFormat }

theorem test_third_plus_confirms : (((after (.frameComplete 0 0x2B false true) counted).line 0).monitor) =
    { state := .confirming, count := 3, silence := some 101, holding := List.replicate 3 (char 0x2B) } := by decide +kernel
/-- The same connection, "++x": 2Bh, 2Bh and 78h are appended and the monitor settles. -/
theorem test_failed_match_forwards : ((after (.frameComplete 0 0x78 false true) counted).line 1).tq.entries =
    [char 0x2B, char 0x2B, char 0x78] := by decide +kernel
/-- The expiry in CONFIRMING: RELEASED(0, 1, ESCAPE), and no "+" is appended. -/
theorem test_escape_releases : ((after (.silenceTimerExpiry 0) (bridged 100 (monitor .confirming 3 (some 0)))).host.events,
    ((after (.silenceTimerExpiry 0) (bridged 100 (monitor .confirming 3 (some 0)))).line 1).tq.entries) =
    ([{ kind := .released, line := 0, peer := 1, info := 0x02, seq := 0 }], []) := by decide +kernel

/-! ### Chapter 8 -/

/-- The record of the worked examples of chapters 8 and 9: lines 6 and 4, no escape profile, FORWARD, no idle limit. -/
def printer : Contents :=
  { lineA := 6, lineB := 4, escChar := 0, escCount := 0, guardTime := 0, monitorA := false, monitorB := false
    breakAction := .forward, idleLimit := 0, armAtStart := true }

theorem test_standing_put : (after .standingPut (given quiet #v[1, 6, 4, 0, 0, 0, 0x08, 0])).record 1 = .idle printer := by
  decide +kernel
/-- A standing connection of slot 1 is reported with info 81h (R177). -/
theorem test_standing_arm : (after .standingArm (given (((quiet.modLine 6 attached).modLine 4 attached).setRecord 1
    (.idle printer)) #v[1, 0, 0, 0, 0, 0, 0, 0])).host.events =
    [{ kind := .connected, line := 6, peer := 4, info := 0x81, seq := 0 }] := by decide +kernel
theorem test_standing_disarm : (after .standingDisarm (given (quiet.setRecord 1 (.armed printer))
    #v[1, 0, 0, 0, 0, 0, 0, 0])).record 1 = .idle printer := by decide +kernel
theorem test_standing_drop : (after .standingDrop (given (quiet.setRecord 1 (.armed printer))
    #v[1, 0, 0, 0, 0, 0, 0, 0])).record 1 = .empty := by decide +kernel
theorem test_query_standing : (after .queryStanding (given (quiet.setRecord 1 (.armed printer))
    #v[1, 0, 0, 0, 0, 0, 0, 0])).host.params = #v[2, 6, 4, 0, 0, 0, 0x08, 0] := by decide +kernel

/-! ### Chapter 9 -/

/-- The part of the worked example of chapter 9: lines 4 and 6 open at start, slot 1 ARMED, and another record. -/
def backOffice (slot2 : StandingRecord) : State :=
  (((quiet.modLine 4 fun l => { l with settings := { l.settings with openAtStart := true } }).modLine 6 fun l =>
    { l with settings := { l.settings with openAtStart := true } }).setRecord 1 (.armed printer)).setRecord 2 slot2

/-- Its image as the memory holds it. -/
def image (slot2 : StandingRecord) : List Byte := (saveImage (backOffice slot2)).set 3 0xA5

/-- Chapter 9, worked example: LOAD_DONE OK has number 00h and CONNECTED(6, 4, STANDING, slot 1) number 01h. -/
theorem test_start_up : (after (.imageReadDone (.finished (image .empty)))
    ((State.reset.modLine 4 fun l => { l with ready := true }).modLine 6 fun l => { l with ready := true })).host.events =
    [{ kind := .loadDone, line := 0xFF, peer := 0xFF, info := 0x00, seq := 0 },
     { kind := .connected, line := 6, peer := 4, info := 0x81, seq := 1 }] := by decide +kernel
/-- The same start-up with slot 2 naming line 4 again: LOAD_DONE(FFh, 10, BAD_RECORD). -/
theorem test_damaged_record : (after (.imageReadDone (.finished (image (.armed { printer with lineA := 4, lineB := 5 }))))
    State.reset).host.events = [{ kind := .loadDone, line := 0xFF, peer := 10, info := 0x04, seq := 0 }] := by
  decide +kernel
/-- R160: write 2 goes to 000h with the first eight bytes of the snapshot, and write 36 puts A5h at 003h. -/
theorem test_save_writes : (saveWrite (image .empty) 2, saveWrite (image .empty) 36) =
    ((0x000, (image .empty).take 8), (0x003, [0xA5])) := by decide +kernel
/-- Chapter 9: a save cut by RESET# after its first write leaves the marker blank, and the load that follows reads it BLANK. -/
theorem test_cut_save_loads_blank : (after (.imageReadDone (.finished (image .empty))) (after .resetPin (after .resetPinAsserted
    (after .saveWriteComplete (after .save quiet))))).host.events =
    [{ kind := .loadDone, line := 0xFF, peer := 0xFF, info := 0x02, seq := 0 }] := by decide +kernel
/-- R149: the last poll of a save selects block 0 for the marker, A0h. -/
theorem test_poll_transfer : sentBytes (unansweredPoll 0x003) = [0xA0] ∧ sentBytes (unansweredPoll 0x100) = [0xA2] := by decide
theorem test_save_starts : (after .save quiet).port.state = .saving := by decide +kernel
theorem test_reload_needs_closed_lines : (after .reload hosts).host.result = .wrongState := by decide +kernel

/-! ### Chapter 10 -/

/-- Chapter 10, worked example: the 31 records become 32 with OVERFLOW count 1 and number 1Fh. -/
theorem test_overflow : ((postRecord .released 0 1 1 (unread 31)).events.drop 31, (postRecord .released 0 1 1 (unread 31)).nextSeq)
    = ([{ kind := .overflow, line := 0xFF, peer := 0xFF, info := 1, seq := 0x1F }], 0x20) := by decide +kernel
theorem test_pop : (after (.evtPop 0x00) { quiet with host := unread 2 }).host.events.length = 1 := by decide +kernel
theorem test_pop_of_an_empty_queue : (after (.evtPop 0x00) quiet).host.popEmpty = true := by decide +kernel
theorem test_undefined_code : (after (.unknownCommand 0x13) quiet).host.result = .unknown := by decide +kernel
theorem test_part_status_while_loading : (after .partStatus State.reset).host.readData = some 0x01 := by decide +kernel
theorem test_line_select_ignores_8 : (after (.registerWrite 0x0D 0x08) { quiet with
    host := { quiet.host with lineSelect := 3 } }).host.lineSelect = 3 := by decide +kernel
theorem test_tx_char_is_begun_at_once : ((after (.txChar 0x41) hosts).line 0).tx = .char 0x41 factoryFormat := by
  decide +kernel
theorem test_rx_char : ((after .rxChar (hosts.modLine 0 fun l => { l with rq := filled 0 [char 0x41, char 0x42] l.rq })).host.readData)
    = some 0x41 := by decide +kernel
theorem test_send_break : ((after .sendBreak (given hosts #v[1, 0, 0, 0, 0, 0, 0, 0])).line 1).breakTimer = some 26 := by
  decide +kernel
theorem test_flush_both : ((after .flush (given draining #v[7, 2, 0, 0, 0, 0, 0, 0])).host.result) = .wrongState := by
  decide +kernel

/-! ### Witnesses: for each statement with hypotheses, a state and operands that meet them -/

/-- A lawful state in the middle of traffic, with a command waiting: lines 0 and 1 BRIDGED, an escape character held on line
0, an entry in TQ1, and 31 records unread. -/
def busy : State :=
  let b := bridged 0 (monitor .counting 1 none)
  { b.modLine 1 (fun l => { l with tq := filled 0 [char 0x41] l.tq }) with
    freeList := (List.range 128).drop 1, host := unread 31, pending := [.readySample 0x03] }

theorem busy_lawful : busy.Lawful where
  pool := by simp only [State.PoolLaw]; decide +kernel
  queue := by simp only [State.QueueLaw, Queue.Shape]; decide +kernel
  quota := by simp only [State.QuotaLaw]; decide +kernel
  peer := by
    intro n
    fin_cases n
    · exact ⟨by decide, by decide, by decide, rfl⟩
    · exact ⟨by decide, by decide, by decide, rfl⟩
    all_goals exact .inl rfl
  closed := by simp only [State.ClosedLaw]; decide +kernel
  loading := by simp only [State.LoadingLaw]; decide +kernel
  standing := by
    have h : ∀ n i, (busy.line n).conn.map (·.origin) ≠ some (.standing i) := by decide +kernel
    refine ⟨fun i => ?_, by decide +kernel, fun n i e => absurd e (h n i)⟩
    fin_cases i <;> exact trivial
  timer := by simp only [State.TimerLaw]; decide +kernel
  ready := by simp only [State.ReadyLaw]; decide +kernel
  holding := by
    intro n
    fin_cases n
    · exact ⟨by decide, by
        rw [if_pos (by decide)]; exact ⟨by decide, by decide, by decide, by decide, by decide, by decide, by decide⟩⟩
    · exact ⟨by decide, by
        rw [if_pos (by decide)]; exact ⟨by decide, by decide, by decide, by decide, rfl⟩⟩
    all_goals exact rfl
  held := by simp only [State.HeldLaw]; decide +kernel
  transmit := by simp only [State.TransmitLaw]; decide +kernel
  prompt := by
    refine fun _ => ⟨by decide +kernel, fun i => ?_⟩
    fin_cases i <;> exact trivial
  event := by simp only [HostPort.EventLaw]; decide +kernel
  seq := by simp only [HostPort.SeqLaw]; decide +kernel
  settings := by
    refine ⟨by simp only [Line.SettingsOk]; decide +kernel, by decide, fun i => ?_⟩
    fin_cases i <;> exact trivial
  port := by simp only [State.PortLaw]; decide +kernel
  memory := by decide
  enable := by decide

theorem witness_step_takes_front_command : busy.pending = .readySample 0x03 :: [] := rfl
theorem witness_step_keeps_queue_store_laws : (busy.PoolLaw ∧ busy.QueueLaw) ∧ ∃ t, step busy = .next t :=
  ⟨⟨busy_lawful.pool, busy_lawful.queue⟩, _, rfl⟩
theorem witness_step_keeps_event_queue_law : (busy.host.EventLaw ∧ busy.host.SeqLaw) ∧ ∃ t, step busy = .next t :=
  ⟨⟨busy_lawful.event, busy_lawful.seq⟩, _, rfl⟩
theorem witness_step_keeps_settings_in_range :
    (busy.SettingsLaw ∧ busy.host.irqEnable &&& 0xF8 = 0 ∧ memoryWf busy.memory = true) ∧ ∃ t, step busy = .next t :=
  ⟨⟨busy_lawful.settings, busy_lawful.enable, busy_lawful.memory⟩, _, rfl⟩
theorem witness_step_keeps_every_law : busy.Lawful ∧ ∃ t, step busy = .next t := ⟨busy_lawful, _, rfl⟩
/-! Reset and the Host Port -/

/-- `host_port_after_reset`, `reset_pin_low_cuts_items_and_accesses`: RESET# low, and high. -/
theorem witness_reset_low : (State.assertReset hosts).resetLow = true := by decide +kernel
/-- The statements whose hypothesis on the state is that RESET# is high, `blocks_after_reset` among them. -/
theorem witness_reset_high : busy.resetLow = false := rfl
theorem witness_register_writes : (8 : Nat) ≤ (0x08 : Byte).toNat ∧ 8 ≤ (0xFF : Byte).toNat := by decide
theorem witness_evt_pop : quiet.host.events = [] ∧ ∃ e rest, busy.host.events = e :: rest := ⟨rfl, _, _, rfl⟩
/-- Both sides of the count that saturates, the 31 records of step 2, and 30, 0 and 32 records. -/
theorem witness_posting_rule : (∃ es o, (postRecord .drained 0 1 1 (unread 31)).events = es ++ [o] ∧ o.kind = .overflow) ∧
    ((unread 31).events.length = 31 ∧ ∀ e ∈ (unread 31).events, e.kind ≠ .overflow) ∧
    ((unread 30).events.length ≠ 31 ∧ ∀ e ∈ (unread 30).events, e.kind ≠ .overflow) ∧
    ((unread 0).events.length ≠ 31 ∧ ∀ e ∈ (unread 0).events, e.kind ≠ .overflow) ∧
    (busy.host.EventLaw ∧ busy.host.SeqLaw) :=
  ⟨⟨(unread 31).events, { kind := .overflow, line := 0xFF, peer := 0xFF, info := 1, seq := 31 }, rfl, rfl⟩, by decide +kernel,
    by decide +kernel, by decide +kernel, busy_lawful.event, busy_lawful.seq⟩
theorem witness_refused_command : (0x10 ≤ (resultCode (after .closeLine quiet).host.result).toNat) ∧
    exec .closeLine quiet = .next (after .closeLine quiet) ∧ commandOfCode 0x00 = none ∧ commandOfCode 0xFF = none ∧
    State.reset.resetLow = false ∧ State.reset.port.state = .loading :=
  ⟨by decide +kernel, rfl, by decide, by decide, rfl, rfl⟩
/-- Offsets next to the three that have their own commands. -/
theorem witness_window_codes : ∀ offset ∈ [0x03#5, 0x05#5, 0x0F#5, 0x11#5, 0x1B#5, 0x1D#5],
    offset ≠ 0x04 ∧ offset ≠ 0x10 ∧ offset ≠ 0x1C := by decide

/-- Line 0 HOST with entries in both queues and an idle, output-held transmitter. -/
def stocked : State :=
  { hosts.modLine 0 (fun l => { l with
      rq := filled 0 [char 0x41, char 0x42] l.rq, tq := filled 1 [char 0x43] l.tq
      hold := { l.hold with method := .lines }, hldi := true }) with freeList := (List.range 128).drop 2 }

/-- No queue may be granted a cell: the pool is used up. -/
def drained : State := { hosts with freeList := [] }

/-- Line 0 with another hold method, a pending code or an item, as the function says. -/
def sender (f : Line → Line) : State := stocked.modLine 0 f

theorem witness_register_reads : (hosts.host.lineSelect = 0 ∧ (hosts.line 0).rq.entries = []) ∧
    (∃ e rest, (stocked.line 0).rq.entries = e :: rest ∧ e.kind ≠ .brk) ∧
    ∃ e rest, ((sender fun l => { l with rq := filled 0 [⟨.brk, 0⟩] l.rq }).line 0).rq.entries = e :: rest ∧ e.kind = .brk :=
  ⟨by decide, ⟨_, _, rfl, by decide⟩, _, _, rfl, rfl⟩

/-! Refusals -/

/-- For each refusal of a command that names line 0 or 1, a state and parameters at the end of a range. -/
theorem witness_line_refusals :
    ((given hosts #v[8, 0, 0, 0, 0, 0, 0, 0]).Takes ∧ 8 ≤ ((8 : Byte)).toNat) ∧
    ((given hosts #v[1, 0, 0, 0, 0, 0, 0, 0]).Names 1 ∧ (hosts.line 1).state ≠ .closed ∧ (hosts.line 1).state = .host) ∧
    ((given quiet #v[7, 1, 0, 0, 0, 0, 0, 0]).Names 7 ∧ (quiet.line 7).state = .closed) ∧
    ((given calling #v[0, 8, 2, 2, 11, 1, 0, 0]).Names 0 ∧ (calling.line 0).state ≠ .closed ∧ (calling.line 0).state ≠ .host) ∧
    (formatOf 8 2 2 11 ≠ none ∧ formatOf 8 2 2 12 = none ∧ formatOf 6 2 2 11 = none ∧ formatOf 8 3 2 11 = none ∧
      formatOf 8 2 0 11 = none ∧ formatOf 8 2 3 11 = none) ∧
    (timingOk 1 1 = true ∧ timingOk 1 25 = true ∧ timingOk 0 1 = false ∧ timingOk 1 0 = false ∧ timingOk 1 26 = false) ∧
    (holdOf 2 0x13 0x11 128 126 ≠ none ∧ holdOf 3 0x13 0x11 128 126 = none ∧ holdOf 2 0x13 0x13 128 126 = none ∧
      holdOf 2 0x13 0x11 129 126 = none ∧ holdOf 2 0x13 0x11 128 127 = none ∧ holdOf 2 0x13 0x11 1 0 = none) ∧
    quotaOk 13 64 = false ∧ quotaOk 12 65 = false ∧ quotaOk 0 0 = false ∧ quotaOk 2 1 = false := by
  simp only [State.Names, State.Takes]; decide +kernel

/-- Lines 0 and 1 HOST, with slot 1 ARMED over lines 0 and 4. -/
def promised : State := hosts.setRecord 1 (.armed { printer with lineA := 0 })

/-- For each refusal of CONNECT and of the commands of the Standing List, a state and parameters at the end of a range. -/
theorem witness_call_and_standing_refusals :
    ((given hosts #v[1, 1, 20, 0, 0, 0, 0, 0]).Takes ∧ (given hosts #v[8, 1, 20, 0, 0, 0, 0, 0]).Takes) ∧
    ((given hosts #v[0, 1, 61, 0, 4, 250, 7, 0]).param 0 = lineByte 0 ∧ 60 < ((61 : Byte)).toNat ∧ 250 < ((251 : Byte)).toNat) ∧
    ((given calling #v[0, 1, 60, 0, 4, 250, 7, 0]).Takes ∧ (calling.line 0).state ≠ .host) ∧
    ((given promised #v[0, 1, 60, 0, 4, 250, 7, 0]).Takes ∧ (promised.line 0).state = .host ∧ (promised.line 1).state = .host ∧
      promised.Unreserved 1 ∧ ¬ promised.Unreserved 0) ∧
    ((given (hosts.modLine 0 fun l => { l with ready := false }) #v[0, 1, 1, 0, 0, 0, 0, 0]).Takes ∧ hosts.Unreserved 0 ∧
      ((hosts.modLine 0 fun l => { l with ready := false }).line 0).ready = false) ∧
    ((given quiet #v[4, 0, 1, 0, 0, 0, 0, 0]).Takes ∧ 4 ≤ ((4 : Byte)).toNat ∧
      (given quiet #v[3, 8, 1, 0, 0, 0, 0, 0]).NamesSlot 3 ∧ (given quiet #v[3, 0, 1, 0, 5, 251, 16, 0]).NamesSlot 3) ∧
    (quiet.record 3 = .empty ∧ (quiet.setRecord 3 (.active printer)).record 3 = .active printer ∧
      (quiet.setRecord 3 (.armed printer)).record 3 = .armed printer ∧
      (quiet.setRecord 3 (.idle { printer with lineA := 4, lineB := 5 })).record 3 =
        .idle { printer with lineA := 4, lineB := 5 }) := by
  simp only [State.NamesSlot, State.Takes, State.Unreserved]; decide +kernel

/-! The data ports and the Queue Store -/

theorem witness_rx_char : (hosts.host.lineSelect = 0 ∧ (hosts.line 0).rq.entries = []) ∧
    (∃ e rest, (stocked.line 0).rq.entries = e :: rest) ∧ (stocked.line 0).state ≠ .bridged ∧
    (∃ e rest, ((busy.modLine 0 fun l => { l with rq := filled 9 [char 0x41] l.rq }).line 0).rq.entries = e :: rest) ∧
    (busy.line 0).state = .bridged ∧ (busy.line 0).conn ≠ none :=
  ⟨by decide, ⟨_, _, rfl⟩, by decide, ⟨_, _, rfl⟩, by decide, by decide⟩
/-- A write that waits behind another entry, behind a busy transmitter, and while the line is output-held with an empty TQ; and
one that is begun at once. -/
theorem witness_tx_char :
    (quiet.Takes ∧ (quiet.line 0).state ≠ .host) ∧ (drained.Takes ∧ ¬ drained.Accepts (.tq 0)) ∧
    (stocked.Takes ∧ (stocked.line 0).state = .host ∧ stocked.Accepts (.tq 0) ∧ (stocked.line 0).tq.entries ≠ []) ∧
    ((sender fun l => { l with tq := factoryQueue, tx := .char 0x41 factoryFormat }).Accepts (.tq 0) ∧
      ((sender fun l => { l with tq := factoryQueue, tx := .char 0x41 factoryFormat }).line 0).tx ≠ .idle) ∧
    ((sender fun l => { l with tq := factoryQueue }).Accepts (.tq 0) ∧
      ((sender fun l => { l with tq := factoryQueue }).line 0).tx = .idle ∧
      ((sender fun l => { l with tq := factoryQueue }).line 0).codePending = false ∧
      ((sender fun l => { l with tq := factoryQueue }).line 0).outputHeld = true) ∧
    (hosts.Takes ∧ (hosts.line 0).state = .host ∧ hosts.Accepts (.tq 0) ∧ (hosts.line 0).tq.entries = [] ∧
      (hosts.line 0).tx = .idle ∧ (hosts.line 0).codePending = false ∧ (hosts.line 0).outputHeld = false) := by
  simp only [State.Takes, State.Accepts]; decide +kernel
theorem witness_send_break : (given hosts #v[0, 0, 0, 0, 0, 0, 0, 0]).Names 0 ∧ (given drained #v[0, 0, 0, 0, 0, 0, 0, 0]).Names 0
    ∧ (given stocked #v[0, 0, 0, 0, 0, 0, 0, 0]).Names 0 ∧ 1 ≤ (hosts.line 0).settings.breakLength.toNat := by
  simp only [State.Names, State.Takes]; decide +kernel
/-- An append to a tail cell with room, a first grant, and a refusal. -/
theorem witness_append_rule : (stocked.queue (.tq 0)).Shape ∧ (stocked.append (.tq 0) (char 0x44)).isSome = true ∧
    (stocked.append (.tq 1) (char 0x44)).isSome = true ∧ (stocked.queue (.tq 1)).chain = [] ∧
    (drained.append (.tq 1) (char 0x44)).isSome = false := by
  simp only [Queue.Shape]; decide +kernel
theorem witness_append_room : busy.QueueLaw ∧ busy.QuotaLaw := ⟨busy_lawful.queue, busy_lawful.quota⟩
/-- SET_QUOTA accepted, at the largest reserve 12; refused for the sum of reserves, and for the unmet total. -/
theorem witness_set_quota :
    ((given hosts #v[7, 12, 64, 12, 12, 0, 0, 0]).Names 7 ∧ quotaOk 12 64 = true ∧ quotaOk 12 12 = true ∧
      (hosts.setQuotas 7 12 64 12 12).reserveTotal ≤ 128 ∧ (hosts.setQuotas 7 12 64 12 12).unmetTotal ≤ hosts.freeCount) ∧
    (128 < (((((hosts.setQuotas 0 12 16 12 16).setQuotas 1 12 16 12 16).setQuotas 2 12 16 12 16).setQuotas 3 12 16 12
      16).setQuotas 4 12 16 12 16).reserveTotal) ∧
    drained.freeCount < (drained.setQuotas 7 0 1 0 1).unmetTotal := by
  simp only [State.Names, State.Takes]; decide +kernel

/-! The commands of one line -/

theorem witness_line_commands : ((given quiet #v[7, 0, 0, 0, 0, 0, 0, 0]).Names 7 ∧ (quiet.line 7).state = .closed) ∧
    (given hosts #v[1, 0, 0, 0, 0, 0, 0, 0]).Names 1 ∧ (hosts.line 1).state = .host := by
  simp only [State.Names, State.Takes]; decide +kernel
/-- SET_FORMAT at rate index 11 for a receiver in IDLE and one that is DISABLED, SET_TIMING at both ends of the break length, and
SET_PART with 0 and with 1. -/
theorem witness_settings : (given hosts #v[0, 7, 2, 2, 11, 1, 0, 0]).Names 0 ∧ (hosts.line 0).rx = .idle [] ∧
    (given hosts #v[0, 7, 2, 2, 11, 1, 0, 0]).param 4 = BitVec.ofNat 8 (11 : Fin 12).val ∧
    ((given quiet #v[7, 7, 2, 2, 11, 1, 0, 0]).Names 7 ∧ (quiet.line 7).rx = .disabled) ∧
    (given hosts #v[0, 1, 0, 1, 0, 0, 0, 0]).Names 0 ∧ (given hosts #v[0, 255, 255, 25, 255, 0, 0, 0]).Names 0 ∧
    (quiet.Takes ∧ quiet.param 0 = 0) ∧ (given quiet #v[1, 0, 0, 0, 0, 0, 0, 0]).Takes := by
  simp only [State.Names, State.Takes]; decide +kernel
/-- SET_FLOW at both ends of the marks, and a method NONE that lets an idle, output-held transmitter begin its TQ. -/
theorem witness_set_flow : (given hosts #v[0, 2, 0x13, 0x11, 2, 0, 0, 0]).Names 0 ∧
    ((given hosts #v[0, 2, 0x13, 0x11, 128, 126, 0, 0]).Names 0 ∧ (126 : Byte).toNat + 2 ≤ (128 : Byte).toNat) ∧
    ((given stocked #v[0, 0, 0x13, 0x11, 24, 8, 0, 0]).Names 0 ∧
      ((sender fun l => { l with hold := { l.hold with method := .none } }).line 0).CanBegin ∧
      ¬ (stocked.line 0).CanBegin) := by
  simp only [State.Names, State.Takes, Line.CanBegin]; decide +kernel
theorem witness_flush : ((given stocked #v[0, 1, 0, 0, 0, 0, 0, 0]).Names 0 ∧ 1 ≤ (stocked.line 0).hold.highMark.toNat ∧
    (stocked.line 0).state = .host ∧ (stocked.line 0).conn = none) ∧
    (given stocked #v[0, 2, 0, 0, 0, 0, 0, 0]).Names 0 ∧ (given stocked #v[0, 3, 0, 0, 0, 0, 0, 0]).Names 0 ∧
    (given busy #v[0, 1, 0, 0, 0, 0, 0, 0]).Names 0 ∧ (busy.line 0).state = .bridged ∧ (busy.line 0).conn ≠ none := by
  simp only [State.Names, State.Takes]; decide +kernel

/-! Calls -/

/-- The operands of CONNECT at the ends of their ranges. -/
theorem witness_connect (answer : Byte) (h : answer = 1 ∨ answer = 60) :
    ∃ s : State, s = given (hosts.modLine 1 fun l => { l with ready := false }) #v[0, 1, answer, 0x2B, 4, 250, 7, 255] ∧
      s.Names 0 ∧ s.param 1 = lineByte 1 ∧ 1 ≤ (s.param 2).toNat ∧ (s.param 2).toNat ≤ 60 ∧ (s.param 4).toNat ≤ 4 ∧
      (s.param 5).toNat ≤ 250 ∧ (s.param 6).toNat < 8 ∧ (s.line 0).state = .host ∧ (s.line 1).state = .host ∧
      s.Unreserved 0 ∧ s.Unreserved 1 ∧ (s.line 0).ready = true ∧ (s.line 1).ready = false := by
  refine ⟨_, rfl, ?_⟩
  rcases h with rfl | rfl <;> simp only [State.Names, State.Takes, State.Unreserved] <;> decide +kernel
theorem witness_connect_answers : (given hosts #v[0, 1, 1, 0x2B, 4, 250, 7, 255]).Names 0 ∧
    (hosts.line 0).ready = true ∧ (hosts.line 1).ready = true ∧ hosts.Unreserved 0 ∧ hosts.Unreserved 1 := by
  simp only [State.Names, State.Takes, State.Unreserved]; decide +kernel
/-- `ready_answers_offered_call` and `failed_call_returns_both_lines`. -/
theorem witness_call_in_setup : calling.resetLow = false ∧ (calling.line 0).state = .calling ∧
    (calling.line 1).state = .offered ∧ (calling.line 0).conn = some (parts 1 .caller 0 .release) ∧
    (calling.line 1).conn = some (parts 0 .called 0 .release) ∧
    (calling.line 0).answerTimer = some 0 ∧ (given calling #v[1, 0, 0, 0, 0, 0, 0, 0]).Names 1 ∧
    (given calling #v[0, 0, 0, 0, 0, 0, 0, 0]).Names 0 := by
  simp only [State.Names, State.Takes]; decide +kernel
theorem witness_ready_due :
    ((calling.modLine 1 fun l => { l with readyDue := .counted, rdySample := true }).line 1).readyDue ≠ .none ∧
    ((calling.modLine 1 fun l => { l with readyDue := .counted, rdySample := true }).line 1).rdySample = true ∧
    ((calling.modLine 0 fun l => { l with readyDue := .counted }).line 0).readyDue ≠ .none ∧
    ((calling.modLine 0 fun l => { l with readyDue := .counted }).line 0).rdySample = false := by decide +kernel
theorem witness_early_expiry : (hosts.line 0).answerTimer ≠ some 0 ∧ (answered.line 0).idleTimer ≠ some 0 ∧
    (hosts.line 0).drainTimer ≠ some 0 ∧ (counted.line 0).monitor.silence ≠ some 0 ∧ (hosts.line 0).breakTimer ≠ some 0 ∧
    hosts.port.pollTimer ≠ some 0 ∧ (hosts.line 0).readyDue = .none := by decide +kernel

/-! Automatic establishment -/

/-- An ARMED record that names the line, alone, has its conditions. -/
def establishes (s : State) (n : LineNo) : Bool :=
  allSlots.any fun i => match s.record i with
    | .armed c => (c.lineA == n || c.lineB == n) && c.lineA != c.lineB && s.establishable c &&
        allSlots.all fun j => j == i || !reserves (s.record j) n
    | .empty => false
    | .idle _ => false
    | .active _ => false

/-- Slot 1 ARMED over lines 6 and 4, both HOST with their devices present, with line 6 changed. -/
def armed (f : Line → Line) : State :=
  (((quiet.modLine 6 attached).modLine 4 attached).modLine 6 f).setRecord 1 (.armed printer)

/-- What OPEN_LINE, a FLUSH or the last entry begun, the end of a drain, a failed call and a recognised presence evaluate meets
the conditions that `Evaluated` establishes on; a state with line 6 CLOSED meets none. -/
theorem witness_evaluated : establishes (armed fun l => { l with rx := .waitMark l.settings.format }) 6 = true ∧
    establishes (armed fun l => { l with state := .closed }) 6 = false ∧
    establishes (((armed fun l => { l with tx := .char 0x41 factoryFormat, tq := filled 0 [char 0x42] l.tq }).begun 6
      (char 0x42))) 6 = true ∧
    establishes ((armed fun l => { l with state := .draining, tally := 7 }).returned 6) 6 = true ∧
    establishes ((armed fun l => { l with ready := false }).modLine 6 fun l => { l with ready := true }) 6 = true := by
  decide +kernel

/-! Release and draining -/

/-- Both transmitters busy, line 0 receiving with a ready loss due, and a monitor in a state. -/
def released (guardTime : Byte) (m : Monitor) : State :=
  (bridged guardTime m).modLine 0 fun l => { l with readyDue := .counted, rx := .frame factoryFormat }

/-- RELEASE, a ready loss, the idle timer and a BREAK with a list held; an escape at its expiry; and one at its last character
without a guard. -/
theorem witness_release_causes :
    ((released 100 (monitor .counting 2 (some 9))).Bridged 0 1 (parts 1 .caller 100 .release) ∧
      (given (released 100 (monitor .counting 2 (some 9))) #v[0, 0, 0, 0, 0, 0, 0, 0]).Names 0 ∧
      ((released 100 (monitor .counting 2 (some 9))).line 0).idleTimer = some 0 ∧
      ((released 100 (monitor .counting 2 (some 9))).line 0).readyDue ≠ .none ∧
      ((released 100 (monitor .counting 2 (some 9))).line 0).rdySample = false ∧
      ((released 100 (monitor .counting 2 (some 9))).line 0).rx = .frame factoryFormat) ∧
    ((released 100 (monitor .counting 2 (some 9))).Bridged 1 0 (parts 0 .called 100 .release)) ∧
    ((classify factoryFormat 0 false false).kind = .brk ∧
      ((released 0 (monitor .ready 0 none)).line 0).monitor.holding = []) ∧
    (((released 100 (monitor .confirming 3 (some 0))).line 0).monitor.state = .confirming ∧
      ((released 100 (monitor .confirming 3 (some 0))).line 0).monitor.silence = some 0 ∧
      (released 100 (monitor .confirming 3 (some 0))).Bridged 0 1 (parts 1 .caller 100 .release)) ∧
    (((released 0 (monitor .counting 2 none)).line 0).monitor.count + 1 = (3 : Byte).toNat ∧
      (released 0 (monitor .counting 2 none)).Bridged 0 1 (parts 1 .caller 0 .release) ∧
      classify factoryFormat 0x2B false true = { kind := .data, value := 0x2B } ∧
      ((released 0 (monitor .counting 2 none)).line 0).NoCode { kind := .data, value := 0x2B }) := by
  simp only [State.Names, State.Takes, State.Bridged, Line.NoCode]; decide +kernel

/-- A connection with both TQs empty and both transmitters idle. -/
def silent : State :=
  ((given (bridged 0 .offValue) #v[1, 0, 0, 0, 0, 0, 0, 0]).modLine 0 fun l => { l with tx := .idle }).modLine 1 fun l =>
    { l with tx := .idle }

theorem witness_release_with_complete_drains : silent.Names 1 ∧ silent.Bridged 1 0 (parts 0 .called 0 .release) ∧
    silent.Unreserved 0 ∧ silent.Unreserved 1 ∧ (∀ n : LineNo, n = 1 ∨ n = 0 → (silent.line n).tq.entries = [] ∧
      (silent.line n).monitor.holding = [] ∧
      ((((silent.line n).released silent.drainLimit).afterOccupancy (silent.line n).rq.entries.length).tx = .idle)) := by
  simp only [State.Names, State.Takes, State.Bridged, State.Unreserved]; decide +kernel

/-- The standing connection of slot 1 with nothing left to send and its idle timer at its end. -/
def standing : State :=
  (((after .standingArm (given (((quiet.modLine 6 attached).modLine 4 attached).setRecord 1 (.idle { printer with idleLimit := 1 }))
    #v[1, 0, 0, 0, 0, 0, 0, 0]))).modLine 6 fun l => { l with idleTimer := some 0 })

/-- The idle timer runs in the caller's record; line 4 is the other order of the statement. -/
theorem witness_idle_release_renews : standing.resetLow = false ∧
    standing.Bridged 6 4 (standingPart { printer with idleLimit := 1 } 1 .caller) ∧
    standing.Bridged 4 6 (standingPart { printer with idleLimit := 1 } 1 .called) ∧
    standing.record 1 = .active { printer with idleLimit := 1 } ∧
    (∀ j : SlotNo, j ≠ 1 → reserves (standing.record j) 6 = false ∧ reserves (standing.record j) 4 = false) ∧
    (∀ n : LineNo, n = 6 ∨ n = 4 → (standing.line n).tq.entries = [] ∧ (standing.line n).monitor.holding = [] ∧
      ((standing.line n).released standing.drainLimit).tx = .idle ∧ (standing.line n).ready = true ∧
      (standing.line n).hold.method ≠ .inband) ∧
    (standing.line 6).idleTimer = some 0 := by
  simp only [State.Bridged]; decide +kernel
/-- A drain cut with an idle and with a busy transmitter, and with a tally that saturates. -/
theorem witness_drain_is_cut : (draining.resetLow = false ∧ (draining.line 7).state = .draining ∧ (draining.line 7).conn = none ∧
    (draining.line 7).drainTimer = some 0 ∧ (draining.line 7).tx = .idle) ∧
    (given draining #v[7, 0, 0, 0, 0, 0, 0, 0]).Names 7 ∧
    ((draining.modLine 7 fun l => { l with tx := .char 0x41 factoryFormat, tally := 200 }).line 7).tx ≠ .idle ∧
    min 255 (200 + 90) = 255 := by
  simp only [State.Names, State.Takes]; decide +kernel

/-! Received entries -/

/-- An entry accepted by an RQ, and one refused with the overrun-reported flag clear and set. -/
theorem witness_received_entry : ((crowded.line 4).rx = .frame factoryFormat ∧ (crowded.line 4).state = .host ∧
    (crowded.line 4).NoCode (char 0x42) ∧ ¬ crowded.Accepts (.rq 4)) ∧
    (hosts.modLine 0 fun l => { l with rx := .frame factoryFormat }).Accepts (.rq 0) ∧
    ((crowded.modLine 4 fun l => { l with overrun := true }).line 4).overrun = true := by
  simp only [State.Accepts, Line.NoCode]; decide +kernel
/-- A matching and a wrong parity bit; an all-spacing 7-bit frame of data 80h; and a value that is not all spacing. -/
theorem witness_frame_classification : parityBit .even (frameDataBits .eight 0x07) = some true ∧
    parityBit .odd (frameDataBits .seven 0x00) = some (!false) ∧ (0x80 : Byte) &&& 0x7F = 0x00 ∧ (0x80 : Byte) ≠ 0x00 := by decide
/-- R6: spacing data bits with a marking parity bit and a spacing stop bit are an ERROR of value 00h, and 80h on an all-spacing 7-bit
line, or with parity NONE whatever the operand says of a parity bit, is a BREAK. -/
theorem test_marking_parity_is_no_break :
    classify { factoryFormat with parity := .even } 0x00 true false = { kind := .error, value := 0x00 } ∧
    classify { factoryFormat with dataBits := .seven } 0x80 true false = { kind := .brk, value := 0x00 } := by decide
/-- A flow code for a busy transmitter, and a resume code that lets an idle one begin. -/
theorem witness_flow_codes : ((hosts.modLine 0 fun l => { l with
      hold := { l.hold with method := .inband }, rx := .frame factoryFormat, tx := .char 0x41 factoryFormat }).line 0).hold.method =
      .inband ∧ classify factoryFormat 0x13 false true = { kind := .data, value := 0x13 } ∧
    classify factoryFormat 0x11 false true = { kind := .data, value := 0x11 } ∧
    ((sender fun l => { l with hold := { l.hold with method := .inband }, receivedPause := false }).line 0).CanBegin := by
  simp only [Line.CanBegin]; decide +kernel

/-! Bridged traffic and escape monitors -/

/-- Line 0 receives, bridged to line 1 whose transmitter is busy, with one entry in TQ1 and another limit of it. -/
def receiving (guardTime : Byte) (m : Monitor) (limit : Byte) (tq : List Entry) : State :=
  { ((linked guardTime .forward m).modLine 0 fun l => { l with rx := .frame factoryFormat }).modLine 1 fun l =>
      { l with tq := { filled 0 tq l.tq with limit := limit }, rx := .frame factoryFormat } with
    freeList := (List.range 128).drop 1 }

/-- An entry received on the calling and on the called line, a BREAK under FORWARD, a SETTLING and a READY monitor, and a refused
append with a full cell at the limit. -/
theorem witness_bridged_entry : ((receiving 0 .offValue 16 [char 0x41]).Bridged 0 1 (parts 1 .caller 0 .forward) ∧
      ((receiving 0 .offValue 16 [char 0x41]).line 0).rx = .frame factoryFormat ∧
      ((receiving 0 .offValue 16 [char 0x41]).line 0).monitor.state = .off ∧
      (receiving 0 .offValue 16 [char 0x41]).Accepts (.tq 1)) ∧
    ((receiving 0 .offValue 16 [char 0x41]).Bridged 1 0 (parts 0 .called 0 .forward) ∧
      ((receiving 0 .offValue 16 [char 0x41]).line 1).rx = .frame factoryFormat ∧
      ((receiving 0 .offValue 16 [char 0x41]).line 0).tq.entries = []) ∧
    ((classify factoryFormat 0 false false).kind = .brk ∧ classify factoryFormat 0x78 false true = char 0x78 ∧
      ((receiving 0 .offValue 16 [char 0x41]).line 0).NoCode (char 0x78)) ∧
    ((receiving 100 (monitor .settling 0 (some 5)) 16 [char 0x41]).line 0).monitor.state = .settling ∧
    ((receiving 0 (monitor .ready 0 none) 16 [char 0x41]).line 0).monitor.state = .ready ∧
    ¬ (receiving 0 .offValue 1 (List.replicate 16 (char 0x41))).Accepts (.tq 1) := by
  simp only [State.Bridged, State.Accepts, Line.NoCode]; decide +kernel
/-- The first character held from READY, and the last held with a guard; SETTLING at its expiry. -/
theorem witness_escape_characters :
    ((receiving 0 (monitor .ready 0 none) 16 [char 0x41]).Bridged 0 1 (parts 1 .caller 0 .forward) ∧
      ((receiving 0 (monitor .ready 0 none) 16 [char 0x41]).line 0).monitor.count + 1 < (3 : Byte).toNat) ∧
    ((receiving 100 (monitor .counting 2 (some 1)) 16 [char 0x41]).Bridged 0 1 (parts 1 .caller 100 .forward) ∧
      ((receiving 100 (monitor .counting 2 (some 1)) 16 [char 0x41]).line 0).monitor.count + 1 = (3 : Byte).toNat) ∧
    classify factoryFormat 0x2B false true = { kind := .data, value := 0x2B } ∧
    ((receiving 0 (monitor .ready 0 none) 16 [char 0x41]).line 0).NoCode { kind := .data, value := 0x2B } ∧
    ((receiving 100 (monitor .settling 0 (some 0)) 16 [char 0x41]).line 0).monitor.state = .settling ∧
    ((receiving 100 (monitor .settling 0 (some 0)) 16 [char 0x41]).line 0).monitor.silence = some 0 := by
  simp only [State.Bridged, Line.NoCode]; decide +kernel
/-- A list that the tail cell takes whole, one that it takes in part, and one that it refuses with the flag set; an entry in
CONFIRMING; and one in COUNTING that is no escape character. -/
theorem witness_failed_match :
    ((receiving 100 (monitor .counting 2 (some 0)) 16 [char 0x41]).Bridged 0 1 (parts 1 .caller 100 .forward) ∧
      ((receiving 100 (monitor .counting 2 (some 0)) 16 [char 0x41]).line 0).monitor.state = .counting ∧
      ((receiving 100 (monitor .counting 2 (some 0)) 16 [char 0x41]).line 0).monitor.silence = some 0 ∧
      ((receiving 100 (monitor .counting 2 (some 0)) 16 [char 0x41]).line 0).monitor.holding ≠ [] ∧
      ((receiving 100 (monitor .counting 2 (some 0)) 16 [char 0x41]).line 1).tx ≠ .idle ∧
      2 ≤ ((receiving 100 (monitor .counting 2 (some 0)) 16 [char 0x41]).line 1).tq.tailRoom) ∧
    (((receiving 100 (monitor .counting 2 (some 0)) 1 (List.replicate 15 (char 0x41))).line 1).tq.tailRoom = 1 ∧
      (receiving 100 (monitor .counting 2 (some 0)) 1 (List.replicate 15 (char 0x41))).grantable (.tq 1) = false) ∧
    (((receiving 100 (monitor .counting 2 (some 0)) 1 (List.replicate 16 (char 0x41))).line 1).tq.tailRoom = 0 ∧
      (((receiving 100 (monitor .counting 2 (some 0)) 1 (List.replicate 16 (char 0x41))).modLine 0 fun l =>
        { l with overrun := true }).line 0).overrun = true) ∧
    ((receiving 100 (monitor .confirming 3 (some 4)) 16 [char 0x41]).line 0).monitor.state = .confirming ∧
    classify factoryFormat 0x78 false true ≠ { kind := .data, value := 0x2B } := by
  simp only [State.Bridged]; decide +kernel

/-! The Standing List -/

/-- Slots 0 and 3, and the operands of STANDING_PUT at the ends of their ranges, on a record in each state. -/
theorem witness_standing_put : (given quiet #v[0, 0, 7, 0x2B, 4, 250, 15, 255]).NamesSlot 0 ∧ quiet.record 0 = .empty ∧
    ((given quiet #v[3, 0, 7, 0x2B, 4, 250, 15, 255]).setRecord 3 (.idle printer)).NamesSlot 3 ∧
    (quiet.setRecord 3 (.idle printer)).record 3 = .idle printer ∧
    (quiet.setRecord 3 (.armed printer)).record 3 = .armed printer ∧
    (quiet.setRecord 3 (.active printer)).record 3 = .active printer := by
  simp only [State.NamesSlot, State.Takes]; decide +kernel
/-- A record armed with a line not ready, one whose line another record reserves, and one whose conditions hold. -/
theorem witness_standing_arm : ((given (quiet.setRecord 1 (.idle printer)) #v[1, 0, 0, 0, 0, 0, 0, 0]).NamesSlot 1 ∧
      (∀ j : SlotNo, j ≠ 1 → reserves ((quiet.setRecord 1 (.idle printer)).record j) 6 = false ∧
        reserves ((quiet.setRecord 1 (.idle printer)).record j) 4 = false) ∧ (quiet.line 6).state ≠ .host) ∧
    reserves (((quiet.setRecord 1 (.idle printer)).setRecord 2 (.armed { printer with lineB := 5 })).record 2) 6 = true ∧
    ∀ n : LineNo, n = 6 ∨ n = 4 → (((quiet.modLine 6 attached).modLine 4 attached).line n).state = .host ∧
      (((quiet.modLine 6 attached).modLine 4 attached).line n).tq.entries = [] ∧
      (((quiet.modLine 6 attached).modLine 4 attached).line n).ready = true := by
  simp only [State.NamesSlot, State.Takes]; decide +kernel

/-! The Memory Port -/

/-- A save in its write k, and in the polls after it. -/
def saving (made : Nat) (bus : BusActivity) : State :=
  { quiet with port := { state := .saving, bus := bus, loadBuffer := [], snapshot := saveImage quiet, writesMade := made
                         pollTimer := if bus = .polling then some 0 else none } }

/-- The first, a middle and the last write, a byte refused at the first and the last place of one, and the polls. -/
theorem witness_reload_and_save : (quiet.port.state = .idle ∧ ∀ n, (quiet.line n).state = .closed) ∧
    (hosts.port.state = .idle ∧ (hosts.line 0).state ≠ .closed) ∧
    ((saving 0 .writing).port.state = .saving ∧ (saving 0 .writing).port.bus = .writing ∧
      2 < (saveWriteBytes (saving 0 .writing).port.snapshot 1).length ∧
      9 < (saveWriteBytes (saving 34 .writing).port.snapshot 35).length ∧
      2 < (saveWriteBytes (saving 35 .writing).port.snapshot 36).length) ∧
    ((saving 35 .polling).port.bus = .polling ∧ (saving 35 .polling).port.writesMade < 36 ∧
      (saving 36 .polling).port.writesMade = 36 ∧ (saving 36 .polling).port.pollTimer = some 0) := by decide +kernel
/-- The bus at rest, in a load, in writes 1, 2, 35 and 36, and in the polls after writes 1, 34 and 36. -/
theorem witness_memory_bus : (quiet.port.bus = .quiet ∧ quiet.memoryBus = []) ∧ State.reset.port.bus = .reading ∧
    (saving 0 .writing).port.bus = .writing ∧ (saving 1 .writing).port.writesMade = 1 ∧
    (saving 34 .writing).port.writesMade = 34 ∧ (saving 35 .writing).port.writesMade = 35 ∧
    1 ≤ (saving 1 .polling).port.writesMade ∧ (saving 34 .polling).port.bus = .polling ∧
    8 * ((saving 34 .polling).port.writesMade - 2) = 256 ∧ (saving 36 .polling).port.writesMade = 36 := by decide +kernel
theorem witness_save_writes_the_image : ∃ after : Nat → List Host.Cell, (saveImage quiet).length = 272 ∧
    (saveImage quiet)[3]? = some 0x00 ∧ after 0 = [] ∧
    ∀ k, after (k + 1) = memoryWriteAll (after k) (saveWrite (saveImage quiet) (k + 1)).1 (saveWrite (saveImage quiet) (k + 1)).2 :=
  ⟨fun k => Nat.rec [] (fun k m => memoryWriteAll m (saveWrite (saveImage quiet) (k + 1)).1 (saveWrite (saveImage quiet) (k + 1)).2)
    k, by decide +kernel, by decide +kernel, rfl, fun _ => rfl⟩
theorem witness_image_is_whole : (image .empty).length = 272 ∧ (image .empty)[3]? = some 0xA5 ∧
    ((saveImage quiet).length = 272 ∧ (saveImage quiet)[3]? = some 0x00) := by decide +kernel
theorem witness_saved_image : busy.SettingsLaw ∧ busy.QuotaLaw ∧
    (∀ i j n, reserves (busy.record i) n = true → reserves (busy.record j) n = true → i = j) :=
  ⟨busy_lawful.settings, busy_lawful.quota, busy_lawful.standing.2.1⟩
/-- The outcomes of a load that is not OK: NO_MEMORY, BLANK by the marker a cut save left, BLANK, BAD_CHECKSUM and BAD_RECORD. -/
theorem witness_failed_load : (State.reset.resetLow = false ∧ State.reset.port.state = .loading ∧ State.reset.memory = []) ∧
    memoryRead (after .saveWriteComplete (saving 0 .writing)).memory 3 = some 0x00 ∧
    ((List.replicate 272 (0xFF : Byte)).length = 272 ∧ judgeImage (List.replicate 272 0xFF) = .error (.blank, 0xFF)) ∧
    (((image .empty).set 0x10F 1).length = 272 ∧
      judgeImage ((image .empty).set 0x10F 1) = .error (.badChecksum, 0xFF)) ∧
    (image (.armed { printer with lineA := 4, lineB := 5 })).length = 272 ∧
    judgeImage (image (.armed { printer with lineA := 4, lineB := 5 })) = .error (.badRecord, 10) := by decide +kernel
/-- The good image of the worked example of chapter 9, with lines 4 and 6 open at start and slot 1 to be armed. -/
theorem witness_good_image : State.reset.port.state = .loading ∧ (∀ n, (State.reset.line n).state = .closed) ∧
    (image .empty).length = 272 ∧ State.reset.memory = [] ∧ ∃ g, judgeImage (image .empty) = .ok g ∧
      g.record 1 = .armed printer ∧ (g.line 4).settings.openAtStart = true ∧ (g.line 0).settings.openAtStart = false :=
  ⟨rfl, by decide +kernel, by decide +kernel, rfl,
    { drainLimit := 50, records := [.empty, .armed printer, .empty, .empty], lines := allLines.map fun n =>
      { factoryLineImage with settings := { factorySettings with openAtStart := n == 4 || n == 6 } } }, by decide +kernel,
    rfl, rfl, rfl⟩

/-! The Line Ports -/

/-- A start edge in the format in force and one in an earlier format, and each other state that the statement names. -/
theorem witness_line_port_states :
    ((hosts.line 0).rx = .idle [] ∧ ((hosts.line 0).settings.format :: [])[0]? = some factoryFormat) ∧
    (((hosts.modLine 0 fun l => { l with rx := .idle [format7E1, factoryFormat] }).line 0).rx = .idle [format7E1, factoryFormat] ∧
      (factoryFormat :: [format7E1, factoryFormat])[1]? = some format7E1) ∧
    ((hosts.modLine 0 fun l => { l with rx := .waitMark factoryFormat }).line 0).rx = .waitMark factoryFormat ∧
    ((hosts.modLine 0 fun l => { l with rx := .breakWait factoryFormat }).line 0).rx = .breakWait factoryFormat ∧
    ((hosts.modLine 0 fun l => { l with tx := .breakSpacing factoryFormat, breakTimer := some 0 }).line 0).breakTimer =
      some 0 := by decide +kernel

/-- A HOST line whose item ends: with a code pending, output-held, with an empty TQ, and with an entry to send. -/
def ending (f : Line → Line) : State := stocked.modLine 0 fun l => f { l with tx := .char 0x41 factoryFormat }

theorem witness_item_finished : ((ending id).line 0).tx ≠ .idle ∧ ((ending id).line 0).tx.isSpacing = false ∧
    ((ending fun l => { l with hold := { l.hold with method := .inband }, inputHeld := true }).line 0).codePending = true ∧
    ((ending id).line 0).codePending = false ∧ ((ending id).line 0).outputHeld = true ∧
    ((ending fun l => { l with tq := factoryQueue }).line 0).tq.entries = [] ∧
    ((ending fun l => { l with state := .draining, tq := factoryQueue }).line 0).state = .draining ∧
    ((ending fun l => { l with hldi := false }).line 0).outputHeld = false ∧
    ((ending fun l => { l with hldi := false }).line 0).tq.entries = [char 0x43] := by decide +kernel
/-- HLDI released for a line with something to send, which can begin, and asserted. -/
theorem witness_hldi : (stocked.line 0).hold.method = .lines ∧ (stocked.line 0).tx = .idle ∧ (stocked.line 0).tq.entries ≠ [] ∧
    ((sender fun l => { l with hldi := false }).line 0).CanBegin ∧ ¬ (stocked.line 0).CanBegin := by
  simp only [Line.CanBegin]; decide +kernel
/-- A sample that is equal, one that differs at the first tick, and one that reaches the grace plus one. -/
theorem witness_tick : State.reset.firstTick = true ∧ hosts.firstTick = false ∧ (hosts.line 0).ready = true ∧
    ((graced 3).line 5).settings.readyGrace.toNat + 1 ≤ ((graced 3).line 5).graceCount + 1 ∧
    (∃ f : Timer → Timer, f none = none ∧ ∀ k, f (some k) = some (k - 1)) :=
  ⟨by decide, by decide, by decide, by decide, Option.map (· - 1), rfl, fun _ => rfl⟩
theorem witness_ready_change : ((hosts.modLine 0 fun l => { l with readyDue := .counted }).line 0).rdySample = false ∧
    ((hosts.modLine 0 fun l => { l with readyDue := .first }).line 0).readyDue = .first ∧ (hosts.line 0).state = .host ∧
    (quiet.line 0).state = .closed ∧ (draining.line 7).state = .draining ∧ (calling.line 0).state = .calling ∧
    (calling.line 1).state = .offered ∧ (busy.line 0).state = .bridged := by decide +kernel

end Sys2Proof.Tests
end

/-! PROOF. When an image is whole (O52): the verdicts BLANK and BAD_CHECKSUM of `judgeImage` as conditions on the bytes, the 8-bit
sum as a sum of numbers, and the length and sum of the snapshot that a save takes. -/

namespace Sys2Proof.Machine

/-! ### The 8-bit sum -/

theorem byteSum_eq_sum (bs : List Byte) : byteSum bs = bs.sum := List.sum_eq_foldl.symm

theorem byteSum_append (a b : List Byte) : byteSum (a ++ b) = byteSum a + byteSum b := by
  simp [byteSum_eq_sum]

theorem byteSum_cons (b : Byte) (bs : List Byte) : byteSum (b :: bs) = b + byteSum bs := by
  simp [byteSum_eq_sum]

/-- The 8-bit sum is the sum of the bytes' values, reduced modulo 256. -/
theorem byteSum_toNat (bs : List Byte) : (byteSum bs).toNat = (bs.map (·.toNat)).sum % 256 := by
  induction bs with
  | nil => rfl
  | cons b bs ih => simp [byteSum_cons, BitVec.toNat_add, ih]

theorem byteSum_eq_zero_iff (bs : List Byte) : byteSum bs = 0 ↔ (bs.map (·.toNat)).sum % 256 = 0 := by
  rw [← byteSum_toNat, ← BitVec.toNat_inj]
  exact Iff.rfl

/-- Taking a byte out of a list takes it off the sum. -/
theorem byteSum_sub_imageByte {img : List Byte} {i : Nat} (h : i < img.length) :
    byteSum img - imageByte img i = byteSum (img.take i ++ img.drop (i + 1)) := by
  have hsplit : img = img.take i ++ imageByte img i :: img.drop (i + 1) := by
    simp [imageByte, h]
  have hsum : byteSum img = byteSum (img.take i) + (imageByte img i + byteSum (img.drop (i + 1))) := by
    rw [← byteSum_cons, ← byteSum_append, ← hsplit]
  rw [hsum, byteSum_append]
  ring

/-! ### The four conditions of R151 -/

theorem imageByte_eq_iff {img : List Byte} {i : Nat} (h : i < img.length) (b : Byte) :
    imageByte img i = b ↔ img[i]? = some b := by
  simp [imageByte, h]

theorem imageMarked_iff {img : List Byte} (h : img.length = 272) : imageMarked img = true ↔
    img[0x003]? = some 0xA5 ∧ (img[0x000]? = some 0x53 ∧ img[0x001]? = some 0x58) ∧ img[0x002]? = some 0x01 := by
  have hbyte : ∀ i, i < 272 → ∀ b, imageByte img i = b ↔ img[i]? = some b :=
    fun i hi b => imageByte_eq_iff (h ▸ hi) b
  simp only [imageMarked, Bool.and_eq_true, beq_iff_eq, hbyte 3 (by decide), hbyte 0 (by decide),
    hbyte 1 (by decide), hbyte 2 (by decide), and_assoc]

theorem imageSums_iff {img : List Byte} (h : img.length = 272) : imageSums img = true ↔
    ((img.take 0x003 ++ img.drop 0x004).map (·.toNat)).sum % 256 = 0 := by
  have hall : img.take Config.imageSize = img := List.take_of_length_le h.le
  have hthree : 3 < img.length := by omega
  rw [imageSums, beq_iff_eq, hall, byteSum_sub_imageByte hthree, byteSum_eq_zero_iff]

/-- An image that fails one of the first three conditions is BLANK. -/
theorem judgeImage_of_unmarked {img : List Byte} (hm : imageMarked img = false) :
    judgeImage img = .error (.blank, noLine) := by
  simp [judgeImage, hm]

/-- An image that fails the fourth condition alone is BAD_CHECKSUM. -/
theorem judgeImage_of_wrong_sum {img : List Byte} (hm : imageMarked img = true) (hs : imageSums img = false) :
    judgeImage img = .error (.badChecksum, noLine) := by
  simp [judgeImage, hm, hs]

/-- Of an image that meets the four conditions the fields decide: it is BAD_RECORD or good (R152). -/
theorem judgeImage_of_whole {img : List Byte} (hm : imageMarked img = true) (hs : imageSums img = true) :
    (∃ i, judgeImage img = .error (.badRecord, i)) ∨ ∃ g, judgeImage img = .ok g := by
  cases hf : judgeFields img with
  | error i => exact .inl ⟨i, by simp [judgeImage, hm, hs, hf]⟩
  | ok g => exact .inr ⟨g, by simp [judgeImage, hm, hs, hf]⟩

theorem judgeImage_whole_iff (img : List Byte) :
    judgeImage img ≠ .error (.blank, noLine) ∧ judgeImage img ≠ .error (.badChecksum, noLine) ↔
      imageMarked img = true ∧ imageSums img = true := by
  cases hm : imageMarked img with
  | false => simp [judgeImage_of_unmarked hm]
  | true =>
    cases hs : imageSums img with
    | false => simp [judgeImage_of_wrong_sum hm hs]
    | true => obtain ⟨i, h⟩ | ⟨g, h⟩ := judgeImage_of_whole hm hs <;> simp [h]

/-! ### The snapshot of a save (R159) -/

theorem lineImage_length (l : Line) : (lineImage l).length = 24 := rfl

theorem recordImage_length (r : StandingRecord) : (recordImage r).length = 16 := by
  cases r <;> rfl

theorem imageBody_length (s : State) : (imageBody s).length = 267 := by
  simp [imageBody, lineImage_length, recordImage_length, allLines, allSlots]

theorem saveImage_length (s : State) : (saveImage s).length = 272 := by
  simp [saveImage, imageBody_length]

/-- The checksum makes the snapshot's bytes sum to 00h (R151, R159). -/
theorem byteSum_saveImage (s : State) : byteSum (saveImage s) = 0 := by
  simp only [saveImage, List.cons_append, List.nil_append, byteSum_cons]
  ring

/-- Settles O52: each verdict is a condition on the bytes, and the checksum byte cancels the rest of the snapshot. -/
theorem imageIsWhole : Obligations.image_is_whole := by
  refine ⟨fun img h => ⟨?whole, ?blank⟩, fun s => ⟨saveImage_length s, rfl, ?sum⟩⟩
  case whole =>
    refine (judgeImage_whole_iff img).trans ?_
    rw [imageMarked_iff h, imageSums_iff h, and_assoc, and_assoc]
  case blank =>
    intro hblank
    refine judgeImage_of_unmarked (Bool.eq_false_iff.mpr fun hm => ?_)
    obtain ⟨hvalid, -⟩ := (imageMarked_iff h).mp hm
    simp [hblank] at hvalid
  case sum => exact (byteSum_eq_zero_iff _).mp (byteSum_saveImage s)

end Sys2Proof.Machine

/-! PROOF. The posting rule (O15): `postRecord` in each case of R178, and the two laws of the event queue as conditions on a queue
written as its older records and its newest. -/

namespace Sys2Proof.Machine

/-! ### The newest record -/

theorem newestIsOverflow_iff (es : List Event) :
    newestIsOverflow es = true ↔ ∃ older newest, es = older ++ [newest] ∧ newest.kind = .overflow := by
  cases es using List.reverseRecOn with
  | nil => simp [newestIsOverflow_nil]
  | append_singleton older newest => simp [newestIsOverflow_append, and_comm]

theorem newestIsOverflow_eq_false_iff (es : List Event) :
    newestIsOverflow es = false ↔ ∀ older newest, es = older ++ [newest] → newest.kind ≠ .overflow := by
  simp only [← Bool.not_eq_true, newestIsOverflow_iff, not_exists, not_and, ne_eq]

theorem pushRecord_events (kind : EventKind) (line peer info : Byte) (h : HostPort) :
    (pushRecord kind line peer info h).events =
      h.events ++ [{ kind := kind, line := line, peer := peer, info := info, seq := h.nextSeq }] := rfl

/-! ### The three steps of the posting rule -/

section
variable (kind : EventKind) (line peer info : Byte) {h : HostPort}

theorem postRecord_of_newest_overflow {older : List Event} {newest : Event} (he : h.events = older ++ [newest])
    (ho : newest.kind = .overflow) :
    postRecord kind line peer info h = { h with events := older ++ [countOne newest] } := by
  simp [postRecord, he, newestIsOverflow_append, ho, countNewest_append]

theorem postRecord_at_thirtyOne (hn : newestIsOverflow h.events = false) (hl : h.events.length = 31) :
    postRecord kind line peer info h = pushRecord .overflow noLine noLine 1 h := by
  simp [postRecord, hn, hl, Config.overflowAt]

theorem postRecord_otherwise (hn : newestIsOverflow h.events = false) (hl : h.events.length ≠ 31) :
    postRecord kind line peer info h = pushRecord kind line peer info h := by
  simp [postRecord, hn, hl, Config.overflowAt]

/-- Every post counts in the newest record, appends OVERFLOW, or appends the event's record (R178). -/
theorem postRecord_cases (h : HostPort) :
    (∃ older newest, h.events = older ++ [newest] ∧ newest.kind = .overflow ∧
      postRecord kind line peer info h = { h with events := older ++ [countOne newest] }) ∨
    (newestIsOverflow h.events = false ∧ h.events.length = 31 ∧
      postRecord kind line peer info h = pushRecord .overflow noLine noLine 1 h) ∨
    (newestIsOverflow h.events = false ∧ h.events.length ≠ 31 ∧
      postRecord kind line peer info h = pushRecord kind line peer info h) := by
  cases hn : newestIsOverflow h.events with
  | true =>
    obtain ⟨older, newest, he, ho⟩ := (newestIsOverflow_iff _).mp hn
    exact .inl ⟨older, newest, he, ho, postRecord_of_newest_overflow kind line peer info he ho⟩
  | false =>
    by_cases hl : h.events.length = 31
    · exact .inr (.inl ⟨rfl, hl, postRecord_at_thirtyOne kind line peer info hn hl⟩)
    · exact .inr (.inr ⟨rfl, hl, postRecord_otherwise kind line peer info hn hl⟩)
end

/-! ### The laws of a queue with a newest record -/

theorem HostPort.eventLaw_append_iff {h : HostPort} {older : List Event} {newest : Event}
    (he : h.events = older ++ [newest]) :
    h.EventLaw ↔ older.length ≤ 31 ∧ (∀ e ∈ older, e.kind ≠ .overflow) ∧
      (older.length = 31 → newest.kind = .overflow) := by
  simp [HostPort.EventLaw, he, newestIsOverflow_append, Nat.lt_succ_iff]

/-- One more record behind a number puts the next number one further. -/
theorem add_ofNat_succ_sub (seq : Byte) {i n : Nat} (h : i ≤ n) :
    seq + BitVec.ofNat 8 (n + 1 - i) = seq + BitVec.ofNat 8 (n - i) + 1 := by
  rw [Nat.sub_add_comm h, BitVec.ofNat_add, ← BitVec.add_assoc]
  rfl

/-- The numbers are consecutive when the newest record's number follows the older ones and the next number follows it. -/
theorem HostPort.seqLaw_append_iff {h : HostPort} {older : List Event} {newest : Event}
    (he : h.events = older ++ [newest]) :
    h.SeqLaw ↔ ({ h with events := older, nextSeq := newest.seq } : HostPort).SeqLaw ∧ newest.seq + 1 = h.nextSeq := by
  simp only [HostPort.SeqLaw, he, List.length_append, List.length_singleton]
  constructor
  · intro hs
    have hnewest : newest.seq + 1 = h.nextSeq := by simpa using hs older.length (by omega)
    refine ⟨fun i hi => ?_, hnewest⟩
    have holder := hs i (by omega)
    rw [List.getElem_append_left hi, add_ofNat_succ_sub _ hi.le, ← hnewest] at holder
    exact add_right_cancel holder
  · rintro ⟨holder, hnewest⟩ i hi
    rcases Nat.lt_succ_iff_lt_or_eq.mp hi with hlt | rfl
    · rw [List.getElem_append_left hlt, add_ofNat_succ_sub _ hlt.le, holder i hlt, hnewest]
    · simpa using hnewest

/-- A queue whose newest record is not OVERFLOW holds no OVERFLOW record and at most 31 records. -/
theorem HostPort.EventLaw.no_overflow {h : HostPort} (hl : h.EventLaw) (hn : newestIsOverflow h.events = false) :
    h.events.length ≤ 31 ∧ ∀ e ∈ h.events, e.kind ≠ .overflow := by
  obtain ⟨hle, holder, hfull⟩ := hl
  have hne : h.events.length ≠ 32 := fun hc => by simp [hfull hc] at hn
  refine ⟨by omega, fun e hm => ?_⟩
  rcases List.eq_nil_or_concat h.events with hnil | ⟨older, newest, he⟩
  · simp [hnil] at hm
  · rw [List.concat_eq_append] at he
    rw [he, List.dropLast_concat] at holder
    rw [he, List.mem_append, List.mem_singleton] at hm
    obtain hm | rfl := hm
    · exact holder e hm
    · exact (newestIsOverflow_eq_false_iff _).mp hn _ _ he

/-! ### Each step keeps the laws -/

section
variable {h : HostPort} {older : List Event} {newest : Event}

theorem HostPort.EventLaw.push (hl : h.EventLaw) (hn : newestIsOverflow h.events = false) {kind : EventKind}
    (hk : h.events.length = 31 → kind = .overflow) (line peer info : Byte) :
    (pushRecord kind line peer info h).EventLaw := by
  obtain ⟨hle, hall⟩ := hl.no_overflow hn
  exact (HostPort.eventLaw_append_iff (pushRecord_events kind line peer info h)).mpr ⟨hle, hall, hk⟩

theorem HostPort.SeqLaw.push (hs : h.SeqLaw) (kind : EventKind) (line peer info : Byte) :
    (pushRecord kind line peer info h).SeqLaw :=
  (HostPort.seqLaw_append_iff (pushRecord_events kind line peer info h)).mpr ⟨hs, rfl⟩

theorem HostPort.EventLaw.count (hl : h.EventLaw) (he : h.events = older ++ [newest]) :
    ({ h with events := older ++ [countOne newest] } : HostPort).EventLaw :=
  (HostPort.eventLaw_append_iff (newest := countOne newest) rfl).mpr ((HostPort.eventLaw_append_iff he).mp hl)

theorem HostPort.SeqLaw.count (hs : h.SeqLaw) (he : h.events = older ++ [newest]) :
    ({ h with events := older ++ [countOne newest] } : HostPort).SeqLaw :=
  (HostPort.seqLaw_append_iff (newest := countOne newest) rfl).mpr ((HostPort.seqLaw_append_iff he).mp hs)

theorem HostPort.EventLaw.post (hl : h.EventLaw) (kind : EventKind) (line peer info : Byte) :
    (postRecord kind line peer info h).EventLaw := by
  obtain ⟨older, newest, he, -, hp⟩ | ⟨hn, -, hp⟩ | ⟨hn, hlen, hp⟩ := postRecord_cases kind line peer info h <;> rw [hp]
  · exact hl.count he
  · exact hl.push hn (fun _ => rfl) noLine noLine 1
  · exact hl.push hn (fun hc => absurd hc hlen) line peer info

theorem HostPort.SeqLaw.post (hs : h.SeqLaw) (kind : EventKind) (line peer info : Byte) :
    (postRecord kind line peer info h).SeqLaw := by
  obtain ⟨older, newest, he, -, hp⟩ | ⟨-, -, hp⟩ | ⟨-, -, hp⟩ := postRecord_cases kind line peer info h <;> rw [hp]
  · exact hs.count he
  · exact hs.push .overflow noLine noLine 1
  · exact hs.push kind line peer info
end

/-- Settles O15: the laws by the three steps, and each step's whole outcome from the equation of its case. -/
theorem postingRule : Obligations.posting_rule := by
  intro h kind line peer info
  refine ⟨fun ⟨hl, hs⟩ => ⟨hl.post kind line peer info, hs.post kind line peer info⟩, fun es o he ho => ?counted, fun hnew => ?appended⟩
  case counted => exact postRecord_of_newest_overflow kind line peer info he ho
  case appended =>
    have hn : newestIsOverflow h.events = false := (newestIsOverflow_eq_false_iff _).mpr hnew
    exact ⟨postRecord_at_thirtyOne kind line peer info hn, postRecord_otherwise kind line peer info hn⟩

end Sys2Proof.Machine

/-! PROOF. The Host Port after a reset (O7): what `State.resetAll` leaves in each part that R181 names, and the attention
registers of lines that are CLOSED with empty queues. -/

namespace Sys2Proof.Machine

/-! ### One change to each line -/

theorem State.line_foldl_modLine (f : LineNo → Line → Line) (m : LineNo) (ns : List LineNo) (hns : ns.Nodup) (s : State) :
    (ns.foldl (fun t n => t.modLine n (f n)) s).line m = if m ∈ ns then f m (s.line m) else s.line m := by
  induction ns generalizing s with
  | nil => simp
  | cons n ns ih =>
    obtain ⟨hn, hns⟩ := List.nodup_cons.mp hns
    rw [List.foldl_cons, ih hns, State.line_modLine]
    by_cases hm : m = n
    · subst hm; simp [hn]
    · simp [hm]

/-- A change made to every line in turn reaches each line once. -/
theorem State.line_forLines_modLine (f : LineNo → Line → Line) (s : State) (m : LineNo) :
    (forLines (fun n t => t.modLine n (f n)) s).line m = f m (s.line m) := by
  have hmem : m ∈ allLines := by revert m; decide
  rw [forLines, State.line_foldl_modLine f m allLines (by decide), if_pos hmem]

/-! ### A reset of every block (R180) -/

section
variable (s : State) (r : Result)

@[simp] theorem State.resetAll_line (n : LineNo) : (s.resetAll r).line n = Line.resetValue (s.line n).hldi :=
  State.line_forLines_modLine (fun n _ => Line.resetValue (s.line n).hldi) _ n

@[simp] theorem State.resetAll_host : (s.resetAll r).host = { HostPort.resetValue with result := r } := rfl
@[simp] theorem State.resetAll_port : (s.resetAll r).port = MemoryPort.resetValue := rfl
@[simp] theorem State.resetAll_resetLow : (s.resetAll r).resetLow = false := rfl

theorem State.resetAll_param (i : Fin 8) : (s.resetAll r).param i = 0 := by
  simp [State.param, HostPort.resetValue, Vector.get_eq_getElem]
end

theorem exec_resetPin (s : State) : exec .resetPin s = .next (s.resetAll .none) := rfl

theorem exec_resetPart {s : State} (h : s.resetLow = false) : exec .resetPart s = .next (s.resetAll .done) :=
  whileRunning_of_high h cmdResetPart

/-! ### Attention registers of quiet lines (R175) -/

theorem lineBits_eq_zero {f : LineNo → Bool} (h : ∀ n, f n = false) : lineBits f = 0 := by
  simp [lineBits, allLines, h]

/-- An empty RQ asks for attention only at a threshold of 0. -/
theorem State.attnRxBit_of_empty {s : State} {n : LineNo} (he : (s.line n).rq.entries = [])
    (ht : (s.line n).settings.rxThreshold.toNat ≠ 0) : s.attnRxBit n = false := by
  simp [State.attnRxBit, Queue.occupancy, Queue.exceptions, he, ht]

/-- Only a HOST line asks for attention to its TQ. -/
theorem State.attnTxBit_of_not_host {s : State} {n : LineNo} (h : (s.line n).state ≠ .host) : s.attnTxBit n = false := by
  simp [State.attnTxBit, h]

theorem State.resetAll_attnRx (s : State) (r : Result) : (s.resetAll r).attnRx = 0 :=
  lineBits_eq_zero fun n => State.attnRxBit_of_empty (by simp [Line.resetValue, factoryQueue])
    (by simp [Line.resetValue, factorySettings])

theorem State.resetAll_attnTx (s : State) (r : Result) : (s.resetAll r).attnTx = 0 :=
  lineBits_eq_zero fun n => State.attnTxBit_of_not_host (by simp [Line.resetValue])

/-! ### Reads and IRQ# -/

theorem readRegister_of_high {s : State} (h : s.resetLow = false) (offset : BitVec 5) :
    readRegister s offset = some (s.registerByte offset) := by
  simp [readRegister, h]

theorem State.irqLow_of_disabled {s : State} (h : s.host.irqEnable = 0) : s.irqLow = false := by
  simp [State.irqLow, h]

theorem State.resetAll_partStatusByte (s : State) (r : Result) : (s.resetAll r).partStatusByte = 0x01 := by
  simp [State.partStatusByte, HostPort.resetValue, MemoryPort.resetValue, portStateCode, bitAt]

/-- Both resets give every block its reset values, and leave their own result. -/
theorem exec_reset {s : State} {c : Instr} {r : Result}
    (hc : (c = .resetPin ∧ s.resetLow = true ∧ r = .none) ∨ (c = .resetPart ∧ s.resetLow = false ∧ r = .done)) :
    exec c s = .next (s.resetAll r) := by
  obtain ⟨rfl, -, rfl⟩ | ⟨rfl, hhigh, rfl⟩ := hc
  · exact exec_resetPin s
  · exact exec_resetPart hhigh

/-- Settles O7: both resets take every block's reset values, and each row of R181 is read off them. -/
theorem hostPortAfterReset : Obligations.host_port_after_reset := by
  intro s c r hc
  have hread := readRegister_of_high (State.resetAll_resetLow s r)
  have hrx : readRegister (s.resetAll r) 0x13 = some 0x00 := (hread _).trans (congrArg some (s.resetAll_attnRx r))
  have htx : readRegister (s.resetAll r) 0x14 = some 0x00 := (hread _).trans (congrArg some (s.resetAll_attnTx r))
  have hstatus : readRegister (s.resetAll r) 0x02 = some 0x01 :=
    (hread _).trans (congrArg some (s.resetAll_partStatusByte r))
  have hline : ∀ n, ((s.resetAll r).line n).state = .closed ∧ ((s.resetAll r).line n).rq.entries = [] ∧
      ((s.resetAll r).line n).tq.entries = [] := fun n => by simp [Line.resetValue, factoryQueue]
  exact ⟨s.resetAll r, exec_reset hc, rfl, s.resetAll_param r, rfl, rfl, rfl, rfl, rfl, rfl, rfl, rfl, rfl, hread _, hread _, rfl,
    hrx, htx, hline, State.irqLow_of_disabled rfl, rfl, hstatus⟩

end Sys2Proof.Machine

/-! PROOF. The Host Port's registers, its refusals and its interrupt (O1, O9 to O14, O16, O17): what `exec` is for each host
command, what a write and a read of each offset come to, and the bits of the bytes that the part reads out. -/

namespace Sys2Proof.Machine

set_option Elab.async false

/-- Settles O1: `step` takes the head of a queue that is not empty. -/
theorem stepTakesFrontCommand : Obligations.step_takes_front_command := by
  intro c rest s h
  simp only [step, h]

/-! ### Commands, events and accesses by the level of RESET# -/

theorem exec_hostCommand {s : State} (h : s.resetLow = false) (c : HostCommand) :
    exec (instrOfCommand c) s = .next (runCommand c s) := by
  cases c <;> exact whileRunning_of_high h _

theorem exec_hostCommand_of_low {s : State} (h : s.resetLow = true) (c : HostCommand) :
    exec (instrOfCommand c) s = .next s := by
  cases c <;> exact whileRunning_of_low h _

theorem hostCommands_eq : hostCommands = [HostCommand.openLine, .closeLine, .queryLine, .setFormat, .setTiming, .setFlow,
    .setQuota, .sendBreak, .flush, .connect, .release, .setPart, .standingPut, .standingArm, .standingDisarm, .standingDrop,
    .queryStanding, .save, .reload].map instrOfCommand := rfl

/-- The commands of the list are those that a code names, but for RESET_PART (R167). -/
theorem exists_of_mem_hostCommands {c : Instr} (h : c ∈ hostCommands) : ∃ k, k ≠ .resetPart ∧ instrOfCommand k = c := by
  rw [hostCommands_eq, List.mem_map] at h
  obtain ⟨k, hk, rfl⟩ := h
  refine ⟨k, ?_, rfl⟩
  rintro rfl
  simp at hk

theorem exec_registerWrite {s : State} (h : s.resetLow = false) (offset : BitVec 5) (v : Byte) :
    exec (.registerWrite offset v) s = .next (writeRegister offset v s) := whileRunning_of_high h _

theorem whileReading_of_low {s : State} (h : s.resetLow = true) (f : State → State) :
    whileReading s f = .next { s with host := { s.host with readData := none } } := by
  simp [whileReading, h, State.modHost]

/-! ### RESET# going low -/

/-- Every item on TXD is cut, on each line alone. -/
@[simp] theorem State.assertReset_line (s : State) (n : LineNo) :
    s.assertReset.line n = { s.line n with tx := .idle, breakTimer := none } :=
  State.line_forLines_modLine (fun _ l => { l with tx := .idle, breakTimer := none }) s n

/-- Settles O9: the lines by the change made to each of them, everything else as the update leaves it. -/
theorem resetPinLowCutsItemsAndAccesses : Obligations.reset_pin_low_cuts_items_and_accesses := by
  refine ⟨fun s => ⟨s.assertReset, rfl, rfl, s.assertReset_line, fun n => ⟨by simp [State.txdIdle], rfl, rfl⟩, rfl, rfl, rfl,
    rfl, rfl, rfl, rfl, rfl, rfl⟩, fun s hs => ⟨fun c hc => ?commands, fun v => ?_, fun offset v => ?_, ?_, ?_, fun offset => ?read⟩⟩
  case commands =>
    rcases List.mem_cons.mp hc with rfl | hc
    · exact exec_hostCommand_of_low hs .resetPart
    · obtain ⟨k, -, rfl⟩ := exists_of_mem_hostCommands hc
      exact exec_hostCommand_of_low hs k
  case read => simp [readRegister, hs]
  · exact ⟨whileRunning_of_low hs _, whileRunning_of_low hs _, whileRunning_of_low hs _⟩
  · exact whileRunning_of_low hs _
  · exact whileReading_of_low hs _
  · exact whileReading_of_low hs _

/-! ### Writes to registers -/

theorem lineOfByte_of_le {b : Byte} (h : 8 ≤ b.toNat) : lineOfByte b = none := by
  simp [lineOfByte, h]

/-- Settles O10: the row of `writeRegister` at each offset. -/
theorem registerWrites : Obligations.register_writes := by
  intro s v hs
  refine ⟨fun i => ?param, fun n => ?line, fun hv => ?above, exec_registerWrite hs _ _, exec_registerWrite hs _ _,
    exec_registerWrite hs _ _, fun offset ho => ?none⟩
  case param => fin_cases i <;> exact exec_registerWrite hs _ _
  case line =>
    have hsel : s.selectLine (lineByte n) = { s with host := { s.host with lineSelect := n } } := by
      simp [State.selectLine, State.modHost]
    exact (exec_registerWrite hs _ _).trans (congrArg _ hsel)
  case above =>
    have hsel : s.selectLine v = s := by simp [State.selectLine, lineOfByte_of_le hv]
    exact (exec_registerWrite hs _ _).trans (congrArg _ hsel)
  case none =>
    rw [exec_registerWrite hs]
    congr 1
    have hrow : ∀ o ∈ [0x00#5, 0x01#5, 0x02#5, 0x0E#5, 0x0F#5, 0x11#5, 0x12#5, 0x13#5, 0x14#5, 0x17#5, 0x18#5, 0x19#5, 0x1A#5,
      0x1B#5, 0x1D#5, 0x1E#5, 0x1F#5], writeRegister o v s = s := by
      simp only [List.forall_mem_cons, List.not_mem_nil, false_imp_iff, implies_true, and_true]
      exact ⟨rfl, rfl, rfl, rfl, rfl, rfl, rfl, rfl, rfl, rfl, rfl, rfl, rfl, rfl, rfl, rfl, rfl⟩
    exact hrow offset ho

/-! ### Reads of registers -/

theorem charValue_some (e : Entry) : charValue (some e) = if e.kind = .brk then 0x00 else e.value := by
  simp only [charValue]
  cases e.kind <;> rfl

/-- Settles O11: the row of `registerByte` at each offset. -/
theorem registerReads : Obligations.register_reads := by
  rintro s n hs rfl
  have hread := readRegister_of_high hs
  refine ⟨hread _, hread _, hread _, hread _, fun i => ?param, hread _, fun he => ?empty, fun e rest he => ?oldest, hread _, hread _,
    hread _, hread _, hread _, hread _, hread _⟩
  case param => fin_cases i <;> exact hread _
  case empty =>
    have hp : s.peek s.selectedRq = none := by simp [State.peek, State.selectedRq, State.queue, he]
    exact ⟨(hread 0x0E).trans (congrArg (fun o => some (rxKindCode o)) hp),
      (hread 0x0F).trans (congrArg (fun o => some (charValue o)) hp)⟩
  case oldest =>
    have hp : s.peek s.selectedRq = some e := by simp [State.peek, State.selectedRq, State.queue, he]
    refine ⟨(hread 0x0E).trans ((congrArg (fun o => some (rxKindCode o)) hp).trans ?_),
      (hread 0x0F).trans ((congrArg (fun o => some (charValue o)) hp).trans (congrArg some (charValue_some e)))⟩
    cases hk : e.kind <;> simp [rxKindCode, hk]

/-! ### The window of registers and codes -/

theorem instrOfWrite_of_ne {offset : BitVec 5} (v : Byte) (h1 : offset ≠ 0x04) (h2 : offset ≠ 0x10) (h3 : offset ≠ 0x1C) :
    instrOfWrite offset v = .registerWrite offset v := by
  unfold instrOfWrite
  split
  · next h => exact absurd (Laws.offset_of_toNat h) h1
  · next h => exact absurd (Laws.offset_of_toNat h) h2
  · next h => exact absurd (Laws.offset_of_toNat h) h3
  · rfl

/-- A write to COMMAND runs the command of its code, whichever row spells the write (R166, R167). -/
theorem exec_instrOfWrite_command (v : Byte) (s : State) :
    exec (instrOfWrite 0x04 v) s = whileRunning s (writeCommand v) := by
  cases hc : commandOfCode v with
  | none =>
    have hi : instrOfWrite 0x04 v = .unknownCommand v := by simp [instrOfWrite, hc]
    rw [hi]
    rfl
  | some c =>
    have hi : instrOfWrite 0x04 v = instrOfCommand c := by simp [instrOfWrite, hc]
    rw [hi]
    cases hs : s.resetLow with
    | false => simp [exec_hostCommand hs, whileRunning_of_high hs, writeCommand, hc]
    | true => simp [exec_hostCommand_of_low hs, whileRunning_of_low hs]

/-- Settles O12: the tables by evaluation, and the write rows by the three offsets that have commands of their own. -/
theorem windowCodes : Obligations.window_codes := by
  refine ⟨rfl, rfl, by decide +kernel, fun code => ?_, fun v => ⟨rfl, rfl, fun offset => instrOfWrite_of_ne v⟩, fun offset v s => ?_⟩
  · cases hc : commandOfCode code <;> simp [instrOfWrite, hc]
  · by_cases h1 : offset = 0x04
    · subst h1; exact (exec_instrOfWrite_command v s).symm
    · by_cases h2 : offset = 0x10
      · subst h2; rfl
      · by_cases h3 : offset = 0x1C
        · subst h3; rfl
        · rw [instrOfWrite_of_ne v h1 h2 h3]

/-! ### Bits of the status bytes -/

theorem getLsbD_bitAt (i j : Nat) (b : Bool) : (bitAt i b).getLsbD j = (b && decide (i = j) && decide (j < 8)) := by
  cases b with
  | false => simp [bitAt]
  | true =>
    by_cases hj : j < 8
    · by_cases hij : i = j
      · simp [bitAt, hij, hj]
      · simp [bitAt, hij, hj]; omega
    · simp [bitAt, hj]

/-- The two low bits of PART_STATUS (R164). -/
theorem getLsbD_portStateCode (p : PortState) : (portStateCode p).getLsbD 0 = (p == .loading) ∧
    (portStateCode p).getLsbD 1 = (p == .saving) ∧ ∀ i, 2 ≤ i → (portStateCode p).getLsbD i = false := by
  have hbits : ∀ b : Byte, b.toNat < 4 → ∀ i, 2 ≤ i → b.getLsbD i = false := by
    intro b hb i hi
    exact Nat.testBit_lt_two_pow (hb.trans_le (Nat.pow_le_pow_right (n := 2) (by decide) hi))
  cases p
  · exact ⟨rfl, rfl, hbits _ (by decide)⟩
  · exact ⟨rfl, rfl, hbits _ (by decide)⟩
  · exact ⟨rfl, rfl, hbits _ (by decide)⟩

/-- Settles O13: the byte's fields lie in different bits. -/
theorem partStatusReadsAndClears : Obligations.part_status_reads_and_clears := by
  intro s hs
  obtain ⟨h0, h1, hhigh⟩ := getLsbD_portStateCode s.port.state
  refine ⟨s.partStatusByte, readRegister_of_high hs 0x02, whileReading_of_high hs readPartStatus, ?_⟩
  simp only [State.partStatusByte, BitVec.getLsbD_or, getLsbD_bitAt, h0, h1, hhigh _ (Nat.le_refl 2), hhigh 3 (by decide),
    hhigh 4 (by decide), hhigh 5 (by decide), hhigh 6 (by decide), hhigh 7 (by decide)]
  simp

/-! ### The head of the event queue -/

/-- Settles O14: `popEvent` and the head registers on an empty queue and on one with a head record. -/
theorem evtPopRemovesHead : Obligations.evt_pop_removes_head := by
  intro s v hs
  have hread := readRegister_of_high hs
  have hexec : exec (.evtPop v) s = .next (popEvent s) := whileRunning_of_high hs _
  refine ⟨fun he => ?empty, fun e rest he => ?head⟩
  case empty =>
    have hf : ∀ f, headField s f = 0x00 := fun f => by simp [headField, he]
    have hpop : popEvent s = { s with host := { s.host with popEmpty := true } } := by simp [popEvent, State.modHost, he]
    exact ⟨hexec.trans (congrArg _ hpop), (hread 0x17).trans (congrArg some (hf _)), (hread 0x18).trans (congrArg some (hf _)),
      (hread 0x19).trans (congrArg some (hf _)), (hread 0x1A).trans (congrArg some (hf _)), (hread 0x1B).trans (congrArg some (hf _))⟩
  case head =>
    have hf : ∀ f, headField s f = f e := fun f => by simp [headField, he]
    have hpop : popEvent s = { s with host := { s.host with events := rest } } := by simp [popEvent, State.modHost, he]
    exact ⟨hexec.trans (congrArg _ hpop), (hread 0x17).trans (congrArg some (hf _)), (hread 0x18).trans (congrArg some (hf _)),
      (hread 0x19).trans (congrArg some (hf _)), (hread 0x1A).trans (congrArg some (hf _)), (hread 0x1B).trans (congrArg some (hf _))⟩

/-! ### Refused commands -/

/-- A command leaves a result, and only an accepted one changes anything before it does (R166). -/
def Answers (s t : State) : Prop := ∃ u r, t = u.leave r ∧ (isRefusal r = true → u = s)

theorem Answers.leave {s : State} (u : State) (r : Result) (h : isRefusal r = true → u = s) : Answers s (u.leave r) :=
  ⟨u, r, rfl, h⟩

theorem Answers.refused (s : State) (r : Result) : Answers s (s.leave r) := .leave s r fun _ => rfl
theorem Answers.done (s u : State) : Answers s (u.leave .done) := .leave u .done fun h => nomatch h
theorem Answers.started (s u : State) : Answers s (u.leave .started) := .leave u .started fun h => nomatch h

theorem Answers.ite {s t u : State} {p : Prop} [Decidable p] (ht : Answers s t) (hu : Answers s u) :
    Answers s (if p then t else u) := by
  split
  · exact ht
  · exact hu

theorem Answers.checkLine {s : State} {f : LineNo → State} (h : ∀ n, Answers s (f n)) : Answers s (s.checkLine f) := by
  unfold State.checkLine
  split
  · exact .refused s _
  · split
    · exact .refused s _
    · exact h _

theorem Answers.checkSlot {s : State} {f : SlotNo → State} (h : ∀ i, Answers s (f i)) : Answers s (s.checkSlot f) := by
  unfold State.checkSlot
  split
  · exact .refused s _
  · split
    · exact .refused s _
    · exact h _

/-- Every leaf of every command but RESET_PART is a refusal of the state as it stood, or an acceptance (R166). -/
theorem runCommand_answers (s : State) {c : HostCommand} (hc : c ≠ .resetPart) : Answers s (runCommand c s) := by
  have leaf : ∀ (u : State) (r : Result), (isRefusal r = true → u = s) → Answers s (u.leave r) := Answers.leave
  cases c with
  | resetPart => exact absurd rfl hc
  | openLine => exact .checkLine fun n => .ite (.done s _) (.refused s _)
  | closeLine => exact .checkLine fun n => by split <;> exact leaf _ _ (by simp [isRefusal, resultCode])
  | queryLine => exact .checkLine fun n => .done s _
  | setFormat => exact .checkLine fun n => by split <;> [exact .ite (.done s _) (.refused s _); exact .refused s _]
  | setTiming => exact .checkLine fun n => .ite (.ite (.done s _) (.refused s _)) (.refused s _)
  | setFlow => exact .checkLine fun n => by split <;> [exact .refused s _; exact .ite (.done s _) (.refused s _)]
  | setQuota => exact .checkLine fun n => .ite (.ite (.refused s _) (.ite (.refused s _) (.done s _))) (.refused s _)
  | sendBreak => exact .checkLine fun n => by (repeat' split) <;> exact leaf _ _ (by simp [isRefusal, resultCode])
  | flush => exact .checkLine fun n => .ite (.refused s _) (.ite (.refused s _) (.ite (.refused s _) (.done s _)))
  | connect =>
    refine .ite (.refused s _) ?_
    split
    · exact .ite (.refused s _) (.ite (.refused s _) (.ite (.refused s _) (.ite (.refused s _) (.ite (.refused s _)
        (.ite (.started s _) (.started s _))))))
    · exact .refused s _
  | release => exact .checkLine fun n => by split <;> exact leaf _ _ (by simp [isRefusal, resultCode])
  | setPart => exact .ite (.refused s _) (.ite (.refused s _) (.done s _))
  | standingPut =>
    refine .checkSlot fun i => ?_
    split
    · refine .ite (.refused s _) (.ite (.refused s _) ?_)
      split <;> exact leaf _ _ (by simp [isRefusal, resultCode])
    · exact .refused s _
  | standingArm =>
    refine .checkSlot fun i => ?_
    split
    · exact .refused s _
    · exact .refused s _
    · exact .done s _
    · exact .ite (.refused s _) (.done s _)
  | standingDisarm => exact .checkSlot fun i => by split <;> exact leaf _ _ (by simp [isRefusal, resultCode])
  | standingDrop => exact .checkSlot fun i => by split <;> exact leaf _ _ (by simp [isRefusal, resultCode])
  | queryStanding => exact .checkSlot fun i => .done s _
  | save => simp only [runCommand, cmdSave]; split <;> exact leaf _ _ (by simp [isRefusal, resultCode])
  | reload =>
    simp only [runCommand, cmdReload]
    split
    · exact .refused s _
    · exact .refused s _
    · exact .ite (.refused s _) (.started s _)

/-- While the Memory Port is LOADING every command but RESET_PART meets its first check (R148). -/
theorem runCommand_of_loading {s : State} (h : s.port.state = .loading) {c : HostCommand} (hc : c ≠ .resetPart) :
    runCommand c s = s.leave .loading := by
  have hl := State.isLoading_eq_true h
  cases c with
  | resetPart => exact absurd rfl hc
  | connect => simp [runCommand, cmdConnect, hl]
  | setPart => simp [runCommand, cmdSetPart, hl]
  | save => simp [runCommand, cmdSave, h]
  | reload => simp [runCommand, cmdReload, h]
  | standingPut => exact State.checkSlot_of_loading h _
  | standingArm => exact State.checkSlot_of_loading h _
  | standingDisarm => exact State.checkSlot_of_loading h _
  | standingDrop => exact State.checkSlot_of_loading h _
  | queryStanding => exact State.checkSlot_of_loading h _
  | openLine => exact State.checkLine_of_loading h _
  | closeLine => exact State.checkLine_of_loading h _
  | queryLine => exact State.checkLine_of_loading h _
  | setFormat => exact State.checkLine_of_loading h _
  | setTiming => exact State.checkLine_of_loading h _
  | setFlow => exact State.checkLine_of_loading h _
  | setQuota => exact State.checkLine_of_loading h _
  | sendBreak => exact State.checkLine_of_loading h _
  | flush => exact State.checkLine_of_loading h _
  | release => exact State.checkLine_of_loading h _

/-- Settles O16: by the answer of each command, and by the first check while LOADING. -/
theorem refusedCommandChangesNothing : Obligations.refused_command_changes_nothing := by
  intro s t hs
  refine ⟨fun c hc hexec hcode => ?refused, fun code hcode => ?unknown, fun hl => ⟨fun c hc => ?loading, fun v => ?tx⟩⟩
  case refused =>
    obtain ⟨k, hk, rfl⟩ := exists_of_mem_hostCommands hc
    rw [exec_hostCommand hs, Host.Outcome.next.injEq] at hexec
    subst hexec
    obtain ⟨u, r, ht, hu⟩ := runCommand_answers s hk
    rw [ht] at hcode ⊢
    have hr : isRefusal r = true := by simpa [isRefusal] using hcode
    rw [hu hr]
    exact State.leave_of_refused s r hr
  case unknown =>
    refine (whileRunning_of_high hs (writeCommand code)).trans ?_
    rw [writeCommand, hcode]
    exact congrArg _ (State.leave_of_refused s .unknown rfl)
  case loading =>
    obtain ⟨k, hk, rfl⟩ := exists_of_mem_hostCommands hc
    rw [exec_hostCommand hs, runCommand_of_loading hl hk, State.leave_of_refused s .loading rfl]
  case tx =>
    refine (whileRunning_of_high hs (writeTxChar v)).trans ?_
    rw [writeTxChar, State.isLoading_eq_true hl]
    rfl

/-! ### Levels, attention and IRQ# -/

/-- Bit n of a bitmap is the value for line n (R164). -/
theorem getLsbD_lineBits (f : LineNo → Bool) (n : LineNo) : (lineBits f).getLsbD n.val = f n := by
  have hbits : ∀ a b c d e g h i : Bool, ∀ k : Fin 8,
      ([(0#8, a), (1#8, b), (2#8, c), (3#8, d), (4#8, e), (5#8, g), (6#8, h), (7#8, i)].foldl
        (fun (v : Byte) p => if p.2 then v ||| (1#8 <<< p.1.toNat) else v) 0).getLsbD k.val =
      [a, b, c, d, e, g, h, i].get k := by decide +kernel
  have h := hbits (f 0) (f 1) (f 2) (f 3) (f 4) (f 5) (f 6) (f 7) n
  refine Eq.trans ?_ (h.trans ?_)
  · rfl
  · fin_cases n <;> rfl

/-- Two bytes share a bit exactly when their conjunction is not zero. -/
theorem and_ne_zero_iff (a b : Byte) : (a &&& b != 0) = true ↔ ∃ x : LineNo, a.getLsbD x.val = true ∧ b.getLsbD x.val = true := by
  rw [bne_iff_ne]
  constructor
  · intro h
    by_contra hn
    refine h (BitVec.eq_of_getLsbD_eq fun i hi => ?_)
    have := fun hab => hn ⟨⟨i, hi⟩, hab⟩
    simpa using this
  · rintro ⟨x, ha, hb⟩ h0
    have hx := congrArg (fun v : Byte => v.getLsbD x.val) h0
    rw [BitVec.getLsbD_and, ha, hb] at hx
    simp at hx

theorem Queue.exceptions_ne_zero_iff (q : Queue) : q.exceptions ≠ 0 ↔ ∃ e ∈ q.entries, e.kind ≠ .data := by
  simp [Queue.exceptions]

theorem State.call_of_high {s : State} (h : s.resetLow = false) (n : LineNo) :
    s.call n = true ↔ (s.line n).state = .offered ∨ (s.line n).state = .bridged := by
  simp [State.call, h]

/-- Settles O17: bit by bit, and IRQ# by its three enables. -/
theorem levelsAttentionAndInterrupt : Obligations.levels_attention_and_interrupt := by
  intro s hs
  have hread := readRegister_of_high hs
  refine ⟨s.readyLevels, s.callLevels, s.attnRx, s.attnTx, hread 0x1E, hread 0x1F, hread 0x13, hread 0x14,
    fun n => ⟨?ready, getLsbD_lineBits _ n, State.call_of_high hs n⟩, fun x => ?rx, fun x => ?tx, ?irq⟩
  case ready => rw [State.readyLevels, getLsbD_lineBits]
  case rx =>
    rw [State.attnRx, getLsbD_lineBits, State.attnRxBit, Bool.or_eq_true, decide_eq_true_iff, decide_eq_true_iff,
      Queue.exceptions_ne_zero_iff]
    rfl
  case tx =>
    rw [State.attnTx, getLsbD_lineBits, State.attnTxBit, Bool.and_eq_true, decide_eq_true_iff, beq_iff_eq]
    rfl
  case irq =>
    simp only [State.irqLow, Bool.or_eq_true, Bool.and_eq_true, and_ne_zero_iff, Bool.not_eq_true', List.isEmpty_eq_false_iff,
      or_assoc]

end Sys2Proof.Machine

/-! PROOF. Refusals and settings (O18, O19, O25, O28, O29, O35, O46, O48, O56): which parameters each reading of a byte accepts,
and the commands and events whose outcome is one update of the state. -/

namespace Sys2Proof.Machine

set_option Elab.async false

/-! ### Which bytes are read -/

theorem dataBitsOf_eq_none_iff (b : Byte) : dataBitsOf b = none ↔ ¬ (b = 7 ∨ b = 8) := by
  unfold dataBitsOf
  (repeat' split) <;> simp_all

theorem parityOf_eq_none_iff (b : Byte) : parityOf b = none ↔ ¬ b.toNat ≤ 2 := by
  revert b; decide +kernel

theorem stopBitsOf_eq_none_iff (b : Byte) : stopBitsOf b = none ↔ ¬ (b = 1 ∨ b = 2) := by
  unfold stopBitsOf
  (repeat' split) <;> simp_all

theorem rateOf_eq_none_iff (b : Byte) : rateOf b = none ↔ ¬ b.toNat ≤ 11 := by
  simp only [rateOf, dite_eq_right_iff, reduceCtorEq, imp_false]
  omega

theorem onOffOf_eq_none_iff (b : Byte) : onOffOf b = none ↔ ¬ b.toNat ≤ 1 := by
  revert b; decide +kernel

theorem methodOf_eq_none_iff (b : Byte) : methodOf b = none ↔ ¬ b.toNat ≤ 2 := by
  revert b; decide +kernel

/-- A format is read when each of its four fields is (R16). -/
theorem formatOf_eq_none_iff (d p t r : Byte) : formatOf d p t r = none ↔
    ¬ ((d = 7 ∨ d = 8) ∧ p.toNat ≤ 2 ∧ (t = 1 ∨ t = 2) ∧ r.toNat ≤ 11) := by
  rw [not_and_or, not_and_or, not_and_or, ← dataBitsOf_eq_none_iff, ← parityOf_eq_none_iff, ← stopBitsOf_eq_none_iff,
    ← rateOf_eq_none_iff]
  cases hd : dataBitsOf d <;> cases hp : parityOf p <;> cases ht : stopBitsOf t <;> cases hr : rateOf r <;>
    simp [formatOf, hd, hp, ht, hr]

/-- Hold settings are read when the method is and the codes and marks are in range (R53). -/
theorem holdOf_eq_none_iff (m p r h l : Byte) : holdOf m p r h l = none ↔
    ¬ (m.toNat ≤ 2 ∧ p ≠ r ∧ 2 ≤ h.toNat ∧ h.toNat ≤ 128 ∧ l.toNat ≤ 126 ∧ l.toNat + 2 ≤ h.toNat) := by
  rw [not_and_or, ← methodOf_eq_none_iff]
  cases hm : methodOf m with
  | none => simp [holdOf, hm]
  | some k =>
    by_cases hr : p ≠ r ∧ 2 ≤ h.toNat ∧ h.toNat ≤ 128 ∧ l.toNat ≤ 126 ∧ l.toNat + 2 ≤ h.toNat <;> simp [holdOf, hm, hr]

theorem timingOk_iff (rx brk : Byte) : timingOk rx brk = true ↔ 1 ≤ rx.toNat ∧ 1 ≤ brk.toNat ∧ brk.toNat ≤ 25 := by
  simp [timingOk, and_assoc]

theorem quotaOk_iff (reserve limit : Byte) : quotaOk reserve limit = true ↔
    reserve.toNat ≤ 12 ∧ 1 ≤ limit.toNat ∧ limit.toNat ≤ 64 ∧ reserve.toNat ≤ limit.toNat := by
  simp [quotaOk, and_assoc]

theorem profileOk_iff (count guardTime : Byte) : profileOk count guardTime = true ↔ count.toNat ≤ 4 ∧ guardTime.toNat ≤ 250 := by
  simp [profileOk]

theorem and_F8_iff (b : Byte) : b &&& 0xF8 = 0 ↔ b.toNat ≤ 7 := by revert b; decide +kernel
theorem and_F0_iff (b : Byte) : b &&& 0xF0 = 0 ↔ b.toNat ≤ 15 := by revert b; decide +kernel

theorem connectOk_iff (s : State) : connectOk s = true ↔ 1 ≤ (s.param 2).toNat ∧ (s.param 2).toNat ≤ 60 ∧
    (s.param 4).toNat ≤ 4 ∧ (s.param 5).toNat ≤ 250 ∧ (s.param 6).toNat ≤ 7 := by
  simp only [connectOk, Bool.and_eq_true, decide_eq_true_iff, profileOk_iff, beq_iff_eq, and_F8_iff, and_assoc]

theorem standingOk_iff (s : State) : standingOk s = true ↔
    (s.param 4).toNat ≤ 4 ∧ (s.param 5).toNat ≤ 250 ∧ (s.param 6).toNat ≤ 15 := by
  simp only [standingOk, Bool.and_eq_true, profileOk_iff, beq_iff_eq, and_F0_iff, and_assoc]

theorem State.settable_iff (s : State) (n : LineNo) :
    s.settable n = true ↔ (s.line n).state = .closed ∨ (s.line n).state = .host := by
  simp [State.settable]

theorem State.settable_eq_false {s : State} {n : LineNo} (hc : (s.line n).state ≠ .closed) (hh : (s.line n).state ≠ .host) :
    s.settable n = false := by
  simp [State.settable, hc, hh]

/-! ### Codes of settings are read back -/

@[simp] theorem dataBitsOf_code (d : DataBits) : dataBitsOf (dataBitsCode d) = some d := by cases d <;> rfl
@[simp] theorem parityOf_code (p : Parity) : parityOf (parityCode p) = some p := by cases p <;> rfl
@[simp] theorem stopBitsOf_code (t : StopBits) : stopBitsOf (stopBitsCode t) = some t := by cases t <;> rfl
@[simp] theorem methodOf_code (m : Method) : methodOf (methodCode m) = some m := by cases m <;> rfl
@[simp] theorem onOffOf_code (b : Bool) : onOffOf (onOffCode b) = some b := by cases b <;> rfl
@[simp] theorem rateOf_ofNat (r : Fin 12) : rateOf (BitVec.ofNat 8 r.val) = some r := by revert r; decide

theorem formatOf_codes (d : DataBits) (p : Parity) (t : StopBits) (r : Fin 12) :
    formatOf (dataBitsCode d) (parityCode p) (stopBitsCode t) (BitVec.ofNat 8 r.val) = some ⟨d, p, t, r⟩ := by
  simp [formatOf]

theorem holdOf_codes (m : Method) {p r h l : Byte} (hpr : p ≠ r) (h2 : 2 ≤ h.toNat) (h128 : h.toNat ≤ 128)
    (hl : l.toNat ≤ 126) (hlh : l.toNat + 2 ≤ h.toNat) : holdOf (methodCode m) p r h l = some ⟨m, p, r, h, l⟩ := by
  simp [holdOf, hpr, h2, h128, hl, hlh]

/-! ### Taken commands -/

theorem State.leave_eq_refusedWith (s : State) (r : Result) (h : isRefusal r = true) : s.leave r = s.refusedWith r :=
  State.leave_of_refused s r h

theorem State.Names.takes {s : State} {n : LineNo} (h : s.Names n) : s.Takes := h.1
theorem State.NamesSlot.takes {s : State} {i : SlotNo} (h : s.NamesSlot i) : s.Takes := h.1

theorem State.checkLine_of_above {s : State} (h : s.Takes) (h8 : 8 ≤ (s.param 0).toNat) (f : LineNo → State) :
    s.checkLine f = s.refusedWith .badLine := by
  rw [State.checkLine, State.isLoading_eq_false h.2, lineOfByte_of_le h8]
  exact State.leave_eq_refusedWith s .badLine rfl

theorem slotOfByte_of_le {b : Byte} (h : 4 ≤ b.toNat) : slotOfByte b = none := by
  simp [slotOfByte, h]

theorem State.checkSlot_of_above {s : State} (h : s.Takes) (h4 : 4 ≤ (s.param 0).toNat) (f : SlotNo → State) :
    s.checkSlot f = s.refusedWith .badLine := by
  rw [State.checkSlot, State.isLoading_eq_false h.2, slotOfByte_of_le h4]
  exact State.leave_eq_refusedWith s .badLine rfl

section
variable {s : State} {n : LineNo} {i : SlotNo} {c : HostCommand} {f : LineNo → State} {g : SlotNo → State} {r : Result}

/-- A command that names a line, taken: what is left is its body. -/
theorem exec_checkLine (h : s.Names n) (hc : runCommand c s = s.checkLine f) : exec (instrOfCommand c) s = .next (f n) := by
  rw [exec_hostCommand h.takes.1, hc, State.checkLine_of_names h]

/-- A command that names a slot, taken: what is left is its body. -/
theorem exec_checkSlot (h : s.NamesSlot i) (hc : runCommand c s = s.checkSlot g) : exec (instrOfCommand c) s = .next (g i) := by
  rw [exec_hostCommand h.takes.1, hc, State.checkSlot_of_names h]

theorem exec_checkLine_refused (h : s.Names n) (hc : runCommand c s = s.checkLine f) (hf : f n = s.leave r)
    (hr : isRefusal r = true) : exec (instrOfCommand c) s = .next (s.refusedWith r) := by
  rw [exec_checkLine h hc, hf, State.leave_eq_refusedWith s r hr]

theorem exec_checkSlot_refused (h : s.NamesSlot i) (hc : runCommand c s = s.checkSlot g) (hg : g i = s.leave r)
    (hr : isRefusal r = true) : exec (instrOfCommand c) s = .next (s.refusedWith r) := by
  rw [exec_checkSlot h hc, hg, State.leave_eq_refusedWith s r hr]

theorem exec_checkLine_accepted {t : State} (h : s.Names n) (hc : runCommand c s = s.checkLine f) (hf : f n = t.leave r)
    (hr : isRefusal r = false) : exec (instrOfCommand c) s = .next (t.withResult r) := by
  rw [exec_checkLine h hc, hf, State.leave_of_accepted t r hr]

theorem exec_checkSlot_accepted {t : State} (h : s.NamesSlot i) (hc : runCommand c s = s.checkSlot g) (hg : g i = t.leave r)
    (hr : isRefusal r = false) : exec (instrOfCommand c) s = .next (t.withResult r) := by
  rw [exec_checkSlot h hc, hg, State.leave_of_accepted t r hr]
end

/-! ### Refusals of the commands that name one line -/

section
variable {s : State} {n : LineNo}

theorem exec_setFormat_badValue (h : s.Names n) (hv : ¬ ((s.param 1 = 7 ∨ s.param 1 = 8) ∧ (s.param 2).toNat ≤ 2 ∧
    (s.param 3 = 1 ∨ s.param 3 = 2) ∧ (s.param 4).toNat ≤ 11 ∧ (s.param 5).toNat ≤ 1)) :
    exec .setFormat s = .next (s.refusedWith .badValue) := by
  refine exec_checkLine_refused (c := .setFormat) h rfl ?_ rfl
  cases hf : formatOf (s.param 1) (s.param 2) (s.param 3) (s.param 4) with
  | none => simp
  | some fmt =>
    have ho : onOffOf (s.param 5) = none := by
      have hfmt := mt (formatOf_eq_none_iff (s.param 1) (s.param 2) (s.param 3) (s.param 4)).mpr (by simp [hf])
      rw [onOffOf_eq_none_iff]
      tauto
    simp [ho]

theorem exec_setFormat_wrongState (h : s.Names n) (hc : (s.line n).state ≠ .closed) (hh : (s.line n).state ≠ .host)
    (hv : (s.param 1 = 7 ∨ s.param 1 = 8) ∧ (s.param 2).toNat ≤ 2 ∧
      (s.param 3 = 1 ∨ s.param 3 = 2) ∧ (s.param 4).toNat ≤ 11 ∧ (s.param 5).toNat ≤ 1) :
    exec .setFormat s = .next (s.refusedWith .wrongState) := by
  refine exec_checkLine_refused (c := .setFormat) h rfl ?_ rfl
  obtain ⟨fmt, hf⟩ := Option.ne_none_iff_exists'.mp
    (mt (formatOf_eq_none_iff (s.param 1) (s.param 2) (s.param 3) (s.param 4)).mp (by tauto))
  obtain ⟨o, ho⟩ := Option.ne_none_iff_exists'.mp (mt (onOffOf_eq_none_iff (s.param 5)).mp (by tauto))
  simp [hf, ho, State.settable_eq_false hc hh]

theorem exec_setTiming_refused (h : s.Names n) :
    (¬ (1 ≤ (s.param 1).toNat ∧ 1 ≤ (s.param 3).toNat ∧ (s.param 3).toNat ≤ 25) →
      exec .setTiming s = .next (s.refusedWith .badValue)) ∧
    (1 ≤ (s.param 1).toNat ∧ 1 ≤ (s.param 3).toNat ∧ (s.param 3).toNat ≤ 25 → (s.line n).state ≠ .closed →
      (s.line n).state ≠ .host → exec .setTiming s = .next (s.refusedWith .wrongState)) := by
  rw [← timingOk_iff]
  refine ⟨fun hv => exec_checkLine_refused (c := .setTiming) h rfl (if_neg hv) rfl, fun hv hc hh => ?_⟩
  refine exec_checkLine_refused (c := .setTiming) h rfl ((if_pos hv).trans (if_neg ?_)) rfl
  simp [State.settable_eq_false hc hh]

theorem exec_setFlow_refused (h : s.Names n) :
    (¬ ((s.param 1).toNat ≤ 2 ∧ s.param 2 ≠ s.param 3 ∧ 2 ≤ (s.param 4).toNat ∧ (s.param 4).toNat ≤ 128 ∧
        (s.param 5).toNat ≤ 126 ∧ (s.param 5).toNat + 2 ≤ (s.param 4).toNat) →
      exec .setFlow s = .next (s.refusedWith .badValue)) ∧
    ((s.param 1).toNat ≤ 2 ∧ s.param 2 ≠ s.param 3 ∧ 2 ≤ (s.param 4).toNat ∧ (s.param 4).toNat ≤ 128 ∧
        (s.param 5).toNat ≤ 126 ∧ (s.param 5).toNat + 2 ≤ (s.param 4).toNat → (s.line n).state ≠ .closed →
      (s.line n).state ≠ .host → exec .setFlow s = .next (s.refusedWith .wrongState)) := by
  rw [← holdOf_eq_none_iff]
  refine ⟨fun hv => exec_checkLine_refused (c := .setFlow) h rfl (by simp [hv]) rfl, fun hv hc hh => ?_⟩
  obtain ⟨k, hk⟩ := Option.ne_none_iff_exists'.mp (mt (holdOf_eq_none_iff _ _ _ _ _).mp (not_not_intro hv))
  exact exec_checkLine_refused (c := .setFlow) h rfl (by simp [hk, State.settable_eq_false hc hh]) rfl

theorem exec_flush_refused (h : s.Names n) :
    (s.param 1 = 0 ∨ 3 < (s.param 1).toNat → exec .flush s = .next (s.refusedWith .badValue)) ∧
    (s.param 1 = 1 ∨ s.param 1 = 2 ∨ s.param 1 = 3 → (s.line n).state = .closed →
      exec .flush s = .next (s.refusedWith .notOpen)) ∧
    (s.param 1 = 2 ∨ s.param 1 = 3 → (s.line n).state ≠ .closed → (s.line n).state ≠ .host →
      exec .flush s = .next (s.refusedWith .wrongState)) := by
  have hvalue : s.param 1 = 1 ∨ s.param 1 = 2 ∨ s.param 1 = 3 → ¬ (s.param 1 = 0 ∨ 3 < (s.param 1).toNat) := by
    rintro (h1 | h1 | h1) <;> rw [h1] <;> decide
  refine ⟨fun hv => exec_checkLine_refused (c := .flush) h rfl (if_pos hv) rfl,
    fun hv hs => exec_checkLine_refused (c := .flush) h rfl ((if_neg (hvalue hv)).trans (if_pos hs)) rfl, fun hv hc hh => ?_⟩
  have hne : s.param 1 ≠ 1 := by rcases hv with h1 | h1 <;> rw [h1] <;> decide
  exact exec_checkLine_refused (c := .flush) h rfl
    ((if_neg (hvalue (.inr hv))).trans ((if_neg hc).trans (if_pos ⟨hne, hh⟩))) rfl
end

/-- Settles O18: the checks of each command in their order. -/
theorem lineCommandRefusals : Obligations.line_command_refusals := by
  intro s ht
  refine ⟨fun h8 c hc => ?above, fun n hn => ?named⟩
  case above =>
    have hall : ∀ k : HostCommand, (∃ f, runCommand k s = s.checkLine f) →
        exec (instrOfCommand k) s = .next (s.refusedWith .badLine) := by
      rintro k ⟨f, hf⟩
      rw [exec_hostCommand ht.1, hf, State.checkLine_of_above ht h8]
    have hmem : c ∈ [HostCommand.openLine, .closeLine, .queryLine, .setFormat, .setTiming, .setFlow, .setQuota, .sendBreak,
      .flush, .release].map instrOfCommand := hc
    obtain ⟨k, hk, rfl⟩ := List.mem_map.mp hmem
    refine hall k ?_
    simp only [List.mem_cons, List.not_mem_nil, or_false] at hk
    rcases hk with rfl | rfl | rfl | rfl | rfl | rfl | rfl | rfl | rfl | rfl <;> exact ⟨_, rfl⟩
  case named =>
    have h : s.Names n := ⟨ht, hn⟩
    refine ⟨fun hs => exec_checkLine_refused (c := .openLine) h rfl (if_neg hs) rfl, fun hs => ?_, fun hc hh => ?_,
      fun hs => exec_checkLine_refused (c := .release) h rfl (by simp [hs]) rfl, fun ok hok => ?_, fun ok hok => ?_, fun ok hok => ?_,
      fun hv => ?_, exec_flush_refused h⟩
    · simp only [List.forall_mem_cons, List.not_mem_nil, false_imp_iff, implies_true, and_true]
      exact ⟨exec_checkLine_refused (c := .closeLine) h rfl (by simp [hs]) rfl,
        exec_checkLine_refused (c := .sendBreak) h rfl (by simp [hs]) rfl,
        exec_checkLine_refused (c := .release) h rfl (by simp [hs]) rfl⟩
    · simp only [List.forall_mem_cons, List.not_mem_nil, false_imp_iff, implies_true, and_true]
      exact ⟨exec_checkLine_refused (c := .closeLine) h rfl (by cases hs : (s.line n).state <;> simp_all) rfl,
        exec_checkLine_refused (c := .sendBreak) h rfl (by cases hs : (s.line n).state <;> simp_all) rfl⟩
    · obtain rfl := propext hok
      exact ⟨exec_setFormat_badValue h, fun hv hc hh => exec_setFormat_wrongState h hc hh hv⟩
    · obtain rfl := propext hok
      exact exec_setTiming_refused h
    · obtain rfl := propext hok
      exact exec_setFlow_refused h
    · refine exec_checkLine_refused (c := .setQuota) h rfl (if_neg ?_) rfl
      rw [Bool.and_eq_true, quotaOk_iff, quotaOk_iff]
      tauto

/-! ### Refusals of CONNECT and of the Standing List's commands -/

theorem reserves_iff (r : StandingRecord) (m : LineNo) : reserves r m = true ↔
    ∃ c, (r = .armed c ∨ r = .active c) ∧ (c.lineA = m ∨ c.lineB = m) := by
  cases r <;> simp [reserves, reservedLines]

theorem mem_allSlots (i : SlotNo) : i ∈ allSlots := by revert i; decide
theorem mem_allLines (n : LineNo) : n ∈ allLines := by revert n; decide

theorem State.reserved_iff (s : State) (m : LineNo) : s.reserved m = true ↔ ∃ i, reserves (s.record i) m = true := by
  simp [State.reserved, mem_allSlots]

theorem State.reserved_eq_false {s : State} {m : LineNo} (h : s.Unreserved m) : s.reserved m = false := by
  rw [Bool.eq_false_iff, ne_eq, State.reserved_iff]
  rintro ⟨i, hi⟩
  simp [h i] at hi

theorem State.reservedElsewhere_iff (s : State) (i : SlotNo) (m : LineNo) :
    s.reservedElsewhere i m = true ↔ ∃ j, j ≠ i ∧ reserves (s.record j) m = true := by
  simp [State.reservedElsewhere, mem_allSlots]

theorem lineByte_inj {x y : LineNo} : lineByte x = lineByte y ↔ x = y :=
  ⟨fun h => by simpa using congrArg lineOfByte h, fun h => h ▸ rfl⟩

section
variable {s : State} (h : s.Takes)
include h

theorem exec_connect_eq {t : State} (hc : cmdConnect s = t) : exec .connect s = .next t := by
  rw [← hc]
  exact exec_hostCommand h.1 .connect

theorem exec_connect_badLine (hv : 8 ≤ (s.param 0).toNat ∨ 8 ≤ (s.param 1).toNat ∨ s.param 0 = s.param 1) :
    exec .connect s = .next (s.refusedWith .badLine) := by
  refine exec_connect_eq h ?_
  rw [cmdConnect, State.isLoading_eq_false h.2, ← State.leave_eq_refusedWith s .badLine rfl]
  cases h0 : lineOfByte (s.param 0) with
  | none => rfl
  | some x =>
    cases h1 : lineOfByte (s.param 1) with
    | none => rfl
    | some y =>
      rcases hv with hv | hv | hv
      · simp [lineOfByte_of_le hv] at h0
      · simp [lineOfByte_of_le hv] at h1
      · obtain rfl : x = y := by simpa [← hv, h0] using h1
        simp

/-- CONNECT with two different lines goes on to its other checks. -/
theorem exec_connect_of_lines {x y : LineNo} (h0 : s.param 0 = lineByte x) (h1 : s.param 1 = lineByte y) (hxy : x ≠ y) :
    exec .connect s = .next (
      if connectOk s = false then s.leave .badValue
      else if (s.line x).state ≠ .host ∨ (s.line y).state ≠ .host then s.leave .wrongState
      else if s.reserved x = true ∨ s.reserved y = true then s.leave .reservedLine
      else if (s.line x).ready = false then s.leave .notReady
      else if (s.line y).ready then ((s.acceptCall x y).answer x y).leave .started
      else (s.offerCall x y).leave .started) := by
  refine exec_connect_eq h ?_
  simp [cmdConnect, State.isLoading_eq_false h.2, h0, h1, hxy]
end

section
variable {s : State} {i : SlotNo}

theorem exec_standingPut_badLine (h : s.NamesSlot i)
    (hv : 8 ≤ (s.param 1).toNat ∨ 8 ≤ (s.param 2).toNat ∨ s.param 1 = s.param 2) :
    exec .standingPut s = .next (s.refusedWith .badLine) := by
  refine exec_checkSlot_refused (c := .standingPut) h rfl ?_ rfl
  cases h1 : lineOfByte (s.param 1) with
  | none => simp
  | some a =>
    cases h2 : lineOfByte (s.param 2) with
    | none => simp
    | some b =>
      rcases hv with hv | hv | hv
      · simp [lineOfByte_of_le hv] at h1
      · simp [lineOfByte_of_le hv] at h2
      · obtain rfl : a = b := by simpa [← hv, h1] using h2
        simp

/-- STANDING_PUT with two different lines goes on to its other checks. -/
theorem exec_standingPut_of_lines (h : s.NamesSlot i) {a b : LineNo} (h1 : s.param 1 = lineByte a)
    (h2 : s.param 2 = lineByte b) (hab : a ≠ b) : exec .standingPut s = .next (
      if standingOk s = false then s.leave .badValue
      else match s.record i with
        | .armed _ | .active _ => s.leave .wrongState
        | .empty | .idle _ => (s.setRecord i (.idle (contentsOf s a b))).leave .done) := by
  refine (exec_checkSlot (c := .standingPut) h rfl).trans ?_
  simp only [h1, h2, lineOfByte_lineByte, if_neg hab] <;> rfl
end

/-- Settles O19: the checks of each command in their order. -/
theorem callAndStandingRefusals : Obligations.call_and_standing_refusals := by
  intro s ht
  refine ⟨exec_connect_badLine ht, fun x y h0 h1 hxy ok hok => ?call, fun h4 c hc => ?above, fun i hi => ?slot⟩
  case call =>
    have hexec := exec_connect_of_lines ht h0 h1 hxy
    rw [← connectOk_iff] at hok
    refine ⟨fun hv => ?_, fun hv hs => ?_, fun hv hx hy isReserved hres => ⟨fun hr => ?_, fun hrx hry hready => ?_⟩⟩
    · rw [hexec, if_pos (by simpa [hok] using hv), State.leave_eq_refusedWith s .badValue rfl]
    · rw [hexec, if_neg (by simp [hok.mp hv]), if_pos hs, State.leave_eq_refusedWith s .wrongState rfl]
    all_goals
      have hreserved : ∀ m, s.reserved m = true ↔ isReserved m := fun m => by
        simp only [State.reserved_iff, reserves_iff, hres]
    · rw [hexec, if_neg (by simp [hok.mp hv]), if_neg (by simp [hx, hy]), if_pos (by simpa [hreserved] using hr),
        State.leave_eq_refusedWith s .reservedLine rfl]
    · rw [hexec, if_neg (by simp [hok.mp hv]), if_neg (by simp [hx, hy]), if_neg (by simp [hreserved, hrx, hry]), if_pos hready,
        State.leave_eq_refusedWith s .notReady rfl]
  case above =>
    have hmem : c ∈ [HostCommand.standingPut, .standingArm, .standingDisarm, .standingDrop, .queryStanding].map instrOfCommand := hc
    obtain ⟨k, hk, rfl⟩ := List.mem_map.mp hmem
    have hslot : ∃ g, runCommand k s = s.checkSlot g := by
      simp only [List.mem_cons, List.not_mem_nil, or_false] at hk
      rcases hk with rfl | rfl | rfl | rfl | rfl <;> exact ⟨_, rfl⟩
    obtain ⟨g, hg⟩ := hslot
    rw [exec_hostCommand ht.1, hg, State.checkSlot_of_above ht h4]
  case slot =>
    have h : s.NamesSlot i := ⟨ht, hi⟩
    refine ⟨exec_standingPut_badLine h, fun a b h1 h2 hab => ⟨fun hv => ?_, fun h4 h5 h6 c hc => ?_⟩, fun he => ?_, fun d hd => ?_,
      fun d hd j c hj hc hl => ?_⟩
    · have hbad : standingOk s = false := by rw [Bool.eq_false_iff, ne_eq, standingOk_iff]; omega
      rw [exec_standingPut_of_lines h h1 h2 hab, if_pos hbad, State.leave_eq_refusedWith s .badValue rfl]
    · have hgood : standingOk s = true := (standingOk_iff s).mpr ⟨h4, h5, h6⟩
      rw [exec_standingPut_of_lines h h1 h2 hab, if_neg (by simp [hgood]), ← State.leave_eq_refusedWith s .wrongState rfl]
      rcases hc with hc | hc <;> simp [hc]
    · simp only [List.forall_mem_cons, List.not_mem_nil, false_imp_iff, implies_true, and_true]
      exact ⟨exec_checkSlot_refused (c := .standingArm) h rfl (by simp [he]) rfl,
        exec_checkSlot_refused (c := .standingDisarm) h rfl (by simp [he]) rfl⟩
    · simp only [List.forall_mem_cons, List.not_mem_nil, false_imp_iff, implies_true, and_true]
      exact ⟨exec_checkSlot_refused (c := .standingArm) h rfl (by simp [hd]) rfl,
        exec_checkSlot_refused (c := .standingDisarm) h rfl (by simp [hd]) rfl,
        exec_checkSlot_refused (c := .standingDrop) h rfl (by simp [hd]) rfl⟩
    · have hres : s.reservedElsewhere i d.lineA = true ∨ s.reservedElsewhere i d.lineB = true := by
        simp only [State.reservedElsewhere_iff, reserves_iff]
        rcases hl with hl | hl | hl | hl
        · exact .inl ⟨j, hj, c, hc, .inl hl⟩
        · exact .inl ⟨j, hj, c, hc, .inr hl⟩
        · exact .inr ⟨j, hj, c, hc, .inl hl⟩
        · exact .inr ⟨j, hj, c, hc, .inr hl⟩
      refine exec_checkSlot_refused (c := .standingArm) h rfl ?_ rfl
      simp only [hd]
      exact if_pos (by simpa using hres)

/-! ### Settings stored -/

/-- Settles O25: the two NO_QUOTA checks are the negations of the acceptance. -/
theorem setQuotaResult : Obligations.set_quota_result := by
  rintro s u n h hq1 hq2 rfl
  have hq : (quotaOk (s.param 1) (s.param 2) && quotaOk (s.param 3) (s.param 4)) = true := by simp [hq1, hq2]
  refine ⟨fun hr hu => ?_, fun hv => ?_⟩
  · exact exec_checkLine_accepted (c := .setQuota) h rfl
      ((if_pos hq).trans ((if_neg (Nat.not_lt.mpr hr)).trans (if_neg (Nat.not_lt.mpr hu)))) rfl
  · refine exec_checkLine_refused (c := .setQuota) (r := .noQuota) h rfl ((if_pos hq).trans ?_) rfl
    rcases hv with hv | hv
    · exact if_pos hv
    · exact ite_eq_left_iff.mpr fun _ => if_pos hv

/-- Settles O29: SET_FORMAT, SET_TIMING and SET_PART with parameters that are read. -/
theorem settingsAreStored : Obligations.settings_are_stored := by
  refine ⟨fun s n h hs => ⟨fun d p b r o h1 h2 h3 h4 h5 => ?format, fun h1 h3 h25 => ?timing⟩, fun s h => ⟨fun h0 => ?_, fun h0 => ?_⟩⟩
  case format =>
    have hf : formatOf (s.param 1) (s.param 2) (s.param 3) (s.param 4) = some ⟨d, p, b, r⟩ := by
      rw [h1, h2, h3, h4]; exact formatOf_codes d p b r
    have ho : onOffOf (s.param 5) = some o := by rw [h5]; exact onOffOf_code o
    refine exec_checkLine_accepted (c := .setFormat) h rfl ?_ rfl
    simp only [hf, ho, (State.settable_iff s n).mpr hs, if_true]
    congr 1
    refine State.modLine_congr ?_
    cases hrx : (s.line n).rx <;> simp [RxState.noteFormat]
  case timing =>
    exact exec_checkLine_accepted (c := .setTiming) h rfl
      ((if_pos ((timingOk_iff _ _).mpr ⟨h1, h3, h25⟩)).trans (if_pos ((State.settable_iff s n).mpr hs))) rfl
  · refine (exec_hostCommand h.1 .setPart).trans (congrArg _ ?_)
    simp only [runCommand, cmdSetPart, State.isLoading_eq_false h.2, if_neg h0, Bool.false_eq_true, if_false]
    exact State.leave_of_accepted _ .done rfl
  · refine (exec_hostCommand h.1 .setPart).trans (congrArg _ ?_)
    simp only [runCommand, cmdSetPart, State.isLoading_eq_false h.2, if_pos h0, Bool.false_eq_true, if_false]
    exact State.leave_of_refused s .badValue rfl

/-! ### Reports -/

/-- Settles O28: the report's flags lie in different bits. -/
theorem queryLineReports : Obligations.query_line_reports := by
  intro s n h
  refine ⟨s.lineFlags n, ?report, ?flags⟩
  case report => exact exec_checkLine_accepted (c := .queryLine) (t := s.report (s.lineReport n)) h rfl rfl rfl
  case flags =>
    have hlow : s.resetLow = false := h.takes.1
    simp only [State.lineFlags, BitVec.getLsbD_or, getLsbD_bitAt, State.call, State.hldo, hlow]
    cases hm : (s.line n).hold.method <;> simp [Line.outputHeld, hm]

theorem contentsFlags_bits (c : Contents) : (contentsFlags c).getLsbD 0 = c.monitorA ∧ (contentsFlags c).getLsbD 1 = c.monitorB ∧
    (contentsFlags c).getLsbD 2 = (c.breakAction == .release) ∧ (contentsFlags c).getLsbD 3 = c.armAtStart ∧
    (contentsFlags c).toNat < 16 := by
  have hall : ∀ a b d e : Bool, (bitAt 0 a ||| bitAt 1 b ||| bitAt 2 d ||| bitAt 3 e).toNat < 16 := by decide
  refine ⟨?_, ?_, ?_, ?_, hall ..⟩ <;> simp only [contentsFlags, BitVec.getLsbD_or, getLsbD_bitAt] <;> simp

/-- Settles O48: the report of each state of the record. -/
theorem queryStandingReports : Obligations.query_standing_reports := by
  intro s i h
  refine ⟨recordReport (s.record i),
    exec_checkSlot_accepted (c := .queryStanding) (t := s.report (recordReport (s.record i))) h rfl rfl rfl, fun he => ?_, fun c hc => ?_⟩
  · rw [he]; rfl
  · obtain ⟨h0, h1, h2, h3, hlt⟩ := contentsFlags_bits c
    rcases hc with hc | hc | hc <;> rw [hc] <;> exact ⟨rfl, rfl, rfl, rfl, rfl, rfl, h0, h1, h2, h3, hlt, rfl⟩

/-! ### Standing records written, disarmed and dropped -/

/-- Settles O46: each command by the state of the record. -/
theorem standingPutDisarmDrop : Obligations.standing_put_disarm_drop := by
  rintro s i c h u rfl
  refine ⟨fun a b h1 h2 hab h4 h5 h6 => ?put, fun hr => ⟨?_, ?_, ?_⟩, fun hr => ⟨?_, ?_⟩, fun hr => ⟨?_, ?_⟩, fun hr => ?_⟩
  case put =>
    have hgood : standingOk s = true := (standingOk_iff s).mpr ⟨h4, h5, by omega⟩
    have hexec := exec_standingPut_of_lines h h1 h2 hab
    rw [if_neg (by simp [hgood])] at hexec
    refine ⟨fun hr => ?_, fun hr => ?_⟩
    · rw [hexec]
      rcases hr with hr | hr <;> simp only [hr] <;> rw [State.leave_of_accepted _ .done rfl] <;> rfl
    · rw [hexec]
      rcases hr with hr | hr <;> simp only [hr] <;> rw [State.leave_of_refused _ .wrongState rfl]
  · exact exec_checkSlot_accepted (c := .standingDisarm) h rfl (by simp [hr]) rfl
  · exact exec_checkSlot_accepted (c := .standingDrop) h rfl (by simp [hr]) rfl
  · exact exec_checkSlot_accepted (c := .standingArm) h rfl (by simp [hr]) rfl
  · exact exec_checkSlot_accepted (c := .standingDisarm) h rfl (by simp [hr]) rfl
  · exact exec_checkSlot_accepted (c := .standingDrop) h rfl (by simp [hr]) rfl
  · exact exec_checkSlot_accepted (c := .standingDrop) h rfl (by simp [hr]) rfl
  · simp only [List.forall_mem_cons, List.not_mem_nil, false_imp_iff, implies_true, and_true]
    exact ⟨exec_checkSlot_refused (c := .standingDisarm) (r := .wrongState) h rfl (by simp [hr]) rfl,
      exec_checkSlot_refused (c := .standingArm) (r := .wrongState) h rfl (by simp [hr]) rfl⟩
  · simp only [List.forall_mem_cons, List.not_mem_nil, false_imp_iff, implies_true, and_true]
    exact ⟨exec_checkSlot_refused (c := .standingDisarm) (r := .wrongState) h rfl (by simp [hr]) rfl,
      exec_checkSlot_refused (c := .standingDrop) (r := .wrongState) h rfl (by simp [hr]) rfl,
      exec_checkSlot_refused (c := .standingArm) (r := .wrongState) h rfl (by simp [hr]) rfl⟩

/-! ### Expiries and the receiver's states -/

theorem timerDue_iff (t : Timer) : timerDue t = true ↔ t = some 0 := by
  simp [timerDue]

theorem timerDue_eq_false {t : Timer} (h : t ≠ some 0) : timerDue t = false := by
  simpa [timerDue] using h

/-- Settles O35: each expiry and the recognition test that they are due. -/
theorem earlyExpiryChangesNothing : Obligations.early_expiry_changes_nothing := by
  intro s n hs
  have taken : ∀ f : State → State, f s = s → whileRunning s f = .next s := fun f hf =>
    (whileRunning_of_high hs f).trans (congrArg _ hf)
  refine ⟨fun h => taken _ ?_, fun h => taken _ ?_, fun h => taken _ ?_, fun h => taken _ ?_, fun h => taken _ ?_, fun h => taken _ ?_,
    fun h => taken _ (if_pos h)⟩
  · simp [answerExpiry, timerDue_eq_false h]
  · simp [idleExpiry, timerDue_eq_false h]
  · simp [drainExpiry, timerDue_eq_false h]
  · simp [silenceExpiry, timerDue_eq_false h]
  · cases ht : (s.line n).tx <;> simp [breakExpiry, ht, timerDue_eq_false h]
  · simp [pollExpiry, timerDue_eq_false h]

/-- Settles O56: the receiver's and the transmitter's state decides each event. -/
theorem linePortStates : Obligations.line_port_states := by
  intro s n hs
  refine ⟨fun earlier k fmt hrx hk => ⟨?_, ?_⟩, fun fmt hrx => ?_, fun fmt hrx => ?_, fun fmt htx ht => ?_⟩
  · refine (whileRunning_of_high hs (startBitSampled n _)).trans ?_
    simp [startBitSampled, hrx, hk]
  · refine (whileRunning_of_high hs (startBitSampled n _)).trans ?_
    simp [startBitSampled, hrx, hk]
  · refine (whileRunning_of_high hs (markWaitEnded n)).trans ?_
    simp [markWaitEnded, hrx]
  · refine (whileRunning_of_high hs (breakEnded n)).trans ?_
    simp [breakEnded, hrx]
  · refine (whileRunning_of_high hs (breakExpiry n)).trans ?_
    simp [breakExpiry, htx, ht, timerDue]

end Sys2Proof.Machine

/-! PROOF. The append rule and the append room (O23, O24), and the laws of the Queue Store under everything that an append, a removal
and a discard can do: `State.Restored` says it once. -/

namespace Sys2Proof.Machine

set_option Elab.async false

/-! ### The sixteen queues -/

theorem mem_allQueues (q : QueueId) : q ∈ allQueues := by
  cases q <;> rename_i n <;> revert n <;> decide

theorem allQueues_nodup : allQueues.Nodup := by decide

theorem mem_others {p q : QueueId} : p ∈ allQueues.erase q ↔ p ≠ q := by
  simp [allQueues_nodup.mem_erase_iff, mem_allQueues]

theorem others_eq_filter (q : QueueId) : allQueues.filter (· ≠ q) = allQueues.erase q := by
  rw [allQueues_nodup.erase_eq_filter]
  exact List.filter_congr fun p _ => by by_cases hp : p = q <;> simp [hp]

/-- The unmet reserves of the other fifteen queues, as a sum over those queues (R23). -/
theorem State.unmetOthers_eq (s : State) (q : QueueId) :
    s.unmetOthers q = ((allQueues.erase q).map fun p => (s.queue p).unmet).sum := by
  rw [State.unmetOthers, ← List.sum_map_erase _ (mem_allQueues q), if_pos rfl, Nat.zero_add]
  exact congrArg List.sum (List.map_congr_left fun p hp => if_neg (mem_others.mp hp))

theorem State.unmetTotal_eq (s : State) (q : QueueId) : s.unmetTotal = (s.queue q).unmet + s.unmetOthers q := by
  rw [State.unmetOthers_eq, State.unmetTotal, ← List.sum_map_erase _ (mem_allQueues q)]

theorem State.chains_perm (s : State) (q : QueueId) : (allQueues.flatMap fun p => (s.queue p).chain).Perm
    ((s.queue q).chain ++ (allQueues.erase q).flatMap fun p => (s.queue p).chain) :=
  (List.perm_cons_erase (mem_allQueues q)).flatMap_right _

theorem State.queueLaw_iff (s : State) : s.QueueLaw ↔ ∀ q, (s.queue q).Shape :=
  ⟨fun h q => by cases q <;> [exact (h _).1; exact (h _).2], fun h n => ⟨h (.rq n), h (.tq n)⟩⟩

theorem State.quotaLaw_iff (s : State) : s.QuotaLaw ↔ (∀ q, quotaOk (s.queue q).reserve (s.queue q).limit = true) ∧
    s.reserveTotal ≤ Config.cellCount ∧ s.unmetTotal ≤ s.freeCount :=
  and_congr_left' ⟨fun h q => by cases q <;> [exact (h _).1; exact (h _).2], fun h n => ⟨h (.rq n), h (.tq n)⟩⟩

/-! ### One queue stored anew -/

/-- Everything that an append, a removal and a discard do to the store: one queue and the free list are stored anew, no cell is
lost, the quota stays, and the queue holds one cell more only when it was granted. -/
structure State.Restored (s t : State) (q : QueueId) : Prop where
  eq : ∃ free v, t = (s.withFree free).setQueue q v ∧ (free ++ v.chain).Perm (s.freeList ++ (s.queue q).chain)
  quota : (t.queue q).reserve = (s.queue q).reserve ∧ (t.queue q).limit = (s.queue q).limit
  shape : (s.queue q).Shape → (t.queue q).Shape
  held : (t.queue q).held ≤ (s.queue q).held ∨ s.grantable q = true ∧ (t.queue q).held = (s.queue q).held + 1

section
variable {s t : State} {q : QueueId}

theorem State.Restored.queue_other (h : s.Restored t q) {p : QueueId} (hp : p ≠ q) : t.queue p = s.queue p := by
  obtain ⟨⟨free, v, rfl, -⟩, -, -, -⟩ := h
  simp [State.queue_setQueue_other _ _ hp]

theorem State.Restored.pool_perm (h : s.Restored t q) :
    (t.freeList ++ (t.queue q).chain).Perm (s.freeList ++ (s.queue q).chain) := by
  obtain ⟨⟨free, v, rfl, hp⟩, -, -, -⟩ := h
  simpa using hp

/-- No cell is lost: as many are free or in the queue as before. -/
theorem State.Restored.samePool (h : s.Restored t q) : s.SamePool t q := by
  simpa [State.SamePool, State.freeCount, Queue.held] using h.pool_perm.length_eq

theorem State.Restored.unmetOthers_eq (h : s.Restored t q) : t.unmetOthers q = s.unmetOthers q := by
  simp only [State.unmetOthers_eq]
  exact congrArg List.sum (List.map_congr_left fun p hp => by rw [h.queue_other (mem_others.mp hp)])

theorem State.Restored.poolLaw (h : s.Restored t q) (hs : s.PoolLaw) : t.PoolLaw := by
  refine List.Perm.trans ?_ hs
  have hothers : ((allQueues.erase q).flatMap fun p => (t.queue p).chain) = (allQueues.erase q).flatMap fun p => (s.queue p).chain :=
    List.flatMap_congr fun p hp => by rw [h.queue_other (mem_others.mp hp)]
  have hq := (t.chains_perm q).append_left t.freeList
  rw [← List.append_assoc, hothers] at hq
  refine hq.trans ((h.pool_perm.append_right _).trans ?_)
  rw [List.append_assoc]
  exact ((s.chains_perm q).append_left _).symm

theorem State.Restored.queueLaw (h : s.Restored t q) (hs : s.QueueLaw) : t.QueueLaw := by
  rw [State.queueLaw_iff] at hs ⊢
  intro p
  by_cases hp : p = q
  · subst hp; exact h.shape (hs p)
  · rw [h.queue_other hp]; exact hs p

theorem State.grantable_iff (s : State) (q : QueueId) : s.grantable q = true ↔
    (s.queue q).held < (s.queue q).limit.toNat ∧ 1 ≤ s.freeCount ∧
      ((s.queue q).held < (s.queue q).reserve.toNat ∨ s.unmetOthers q < s.freeCount) := by
  simp only [State.grantable, Bool.and_eq_true, Bool.or_eq_true, decide_eq_true_iff, and_assoc]

/-- The reserve guarantee is kept: a queue past its reserve is granted a cell only beyond the unmet reserves of the others (R22,
R23). -/
theorem State.Restored.quotaLaw (h : s.Restored t q) (hs : s.QuotaLaw) : t.QuotaLaw := by
  rw [State.quotaLaw_iff] at hs ⊢
  obtain ⟨hok, hsum, hfree⟩ := hs
  obtain ⟨hreserve, hlimit⟩ := h.quota
  have hfield : ∀ p, (t.queue p).reserve = (s.queue p).reserve ∧ (t.queue p).limit = (s.queue p).limit := by
    intro p
    by_cases hp : p = q
    · subst hp; exact h.quota
    · simp [h.queue_other hp]
  refine ⟨fun p => by rw [(hfield p).1, (hfield p).2]; exact hok p, ?_, ?_⟩
  · simpa only [State.reserveTotal, (hfield _).1] using hsum
  · have hpool : t.freeCount + (t.queue q).held = s.freeCount + (s.queue q).held := h.samePool
    have hheld := h.held
    rw [State.grantable_iff] at hheld
    rw [State.unmetTotal_eq _ q] at hfree ⊢
    rw [h.unmetOthers_eq]
    simp only [Queue.unmet, hreserve] at *
    omega
end

/-! ### Appends, removals and discards -/

theorem State.append_restored {s t : State} {q : QueueId} {e : Entry} (h : s.append q e = some t) : s.Restored t q := by
  have hshape := State.append_shape h
  obtain ⟨hr, rfl⟩ | ⟨hr, hg, cell, rest, hf, rfl⟩ := State.append_some h
  · exact ⟨⟨s.freeList, _, rfl, .refl _⟩, by simp, hshape, .inl (by simp [Queue.held])⟩
  · refine ⟨⟨rest, _, rfl, ?_⟩, by simp, hshape, .inr ⟨hg, by simp [Queue.held]⟩⟩
    simp only [hf, List.cons_append, ← List.append_assoc]
    exact List.perm_append_singleton cell _

theorem Queue.returned_append_withoutOldest (q : Queue) : q.returned ++ q.withoutOldest.chain = q.chain := by
  unfold Queue.returned Queue.withoutOldest
  split
  · simp
  · split
    · exact List.take_append_drop 1 _
    · simp

theorem State.removeOldest_restored {s t : State} {q : QueueId} {e : Entry} (h : s.removeOldest q = some (e, t)) :
    s.Restored t q := by
  cases he : (s.queue q).entries with
  | nil => simp [State.removeOldest_of_nil he] at h
  | cons a rest =>
    have heq := State.removeOldest_eq he
    obtain ⟨rfl, rfl⟩ : a = e ∧ _ = t := by simpa [heq] using h
    refine ⟨⟨_, _, rfl, ?_⟩, ?_, fun hs => ?_, .inl ?_⟩
    · rw [List.append_assoc, Queue.returned_append_withoutOldest]
    · simp only [State.queue_setQueue_same, Queue.withoutOldest]
      (repeat' split) <;> exact ⟨rfl, rfl⟩
    · obtain ⟨v, free, hv, -, -, -, hshape, -⟩ := State.removeOldest_of_cons he hs
      rw [heq, Option.some.injEq, Prod.mk.injEq] at hv
      rw [hv.2]
      simpa using hshape
    · have := congrArg List.length (s.queue q).returned_append_withoutOldest
      simp only [List.length_append] at this
      simp only [State.queue_setQueue_same, Queue.held]
      omega

theorem State.discard_restored (s : State) (q : QueueId) : s.Restored (s.discard q) q := by
  refine ⟨⟨_, _, rfl, by simp⟩, ?_, fun _ => ?_, .inl ?_⟩ <;> rw [State.discard_eq, State.queue_setQueue_same]
  · exact ⟨rfl, rfl⟩
  · exact Queue.shape_discarded _
  · simp [Queue.held]

/-- Settles O23: `State.append_isSome_iff` decides, and `State.append_eq_withEntry` says what is stored. -/
theorem appendRule : Obligations.append_rule := by
  intro s q e
  refine ⟨?_, fun t v h hv => ?_⟩
  · rw [State.append_isSome_iff, State.Accepts, State.grantable_iff, State.unmetOthers_eq, others_eq_filter]
  · have ht := State.append_eq_withEntry h
    rw [show (s.queue q).withEntry s.freeList e = v from hv.symm] at ht
    have hrestored := State.append_restored h
    have hq : t.queue q = v := by rw [ht, State.queue_setQueue_same]
    exact ⟨ht, hq, fun p hp => hrestored.queue_other hp, hrestored.samePool, fun hs => hq ▸ hrestored.shape hs⟩

/-! ### The append room (R31) -/

section
variable {s : State} (hq : s.QueueLaw) (hu : s.QuotaLaw)
include hu

/-- Under the reserve guarantee a cell is granted exactly when one lies within the limit and beyond the unmet reserves of the
others. -/
theorem State.grantable_iff_of_quota (q : QueueId) : s.grantable q = true ↔
    0 < min ((s.queue q).limit.toNat - (s.queue q).held) (s.freeCount - s.unmetOthers q) := by
  have hfree := hu.2.2
  rw [State.unmetTotal_eq s q, Queue.unmet] at hfree
  rw [State.grantable_iff]
  omega

theorem State.accepts_iff_appendRoom (q : QueueId) : s.Accepts q ↔ 0 < s.appendRoom q := by
  rw [State.Accepts, State.grantable_iff_of_quota hu, State.appendRoom]
  simp only [Config.cellSize]
  omega

include hq

/-- An accepted append takes one off the append room. -/
theorem State.appendRoom_append {t : State} {q : QueueId} {e : Entry} (h : s.append q e = some t) :
    t.appendRoom q + 1 = s.appendRoom q := by
  have hothers := (State.append_restored h).unmetOthers_eq
  obtain ⟨hpos, hempty, hfull⟩ := (s.queueLaw_iff.mp hq) q
  simp only [State.appendRoom, hothers]
  obtain ⟨hr, rfl⟩ | ⟨hr, hg, cell, rest, hf, rfl⟩ := State.append_some h
  · simp only [State.queue_setQueue_same, Queue.tailRoom, Queue.held, Queue.occupancy, State.freeCount, State.setQueue_freeList,
      List.length_append, List.length_singleton] at *
    omega
  · have hmin := (State.grantable_iff_of_quota hu q).mp hg
    have htail : Config.cellSize * ((s.queue q).held + 1) - (if (s.queue q).held = 0 then 0 else (s.queue q).headPos) -
        ((s.queue q).occupancy + 1) = 15 := by
      simp only [Queue.tailRoom, Config.cellSize] at hr ⊢
      by_cases hc : (s.queue q).chain = []
      · simp [Queue.held, Queue.occupancy, hc, (hempty hc).2]
      · have hl : (s.queue q).held ≠ 0 := by simpa [Queue.held] using hc
        obtain ⟨-, -, hle⟩ := hfull hc
        simp only [Config.cellSize] at hle
        rw [if_neg hl]
        omega
    simp only [State.queue_setQueue_same, Queue.tailRoom, Queue.held, Queue.occupancy, State.freeCount, State.setQueue_freeList,
      State.withFree_freeList, hf, List.length_append, List.length_cons, List.length_nil, Config.cellSize] at *
    omega

end

/-- Settles O24, by induction on the entries: each append takes one off the room, and there is one exactly while there is room. -/
theorem appendRoomCountsAppends : Obligations.append_room_counts_appends := by
  intro s q es
  induction es generalizing s with
  | nil => intro _ _; simp
  | cons e es ih =>
    intro hq hu
    have haccepts := (State.append_isSome_iff s q e).trans (State.accepts_iff_appendRoom hu q)
    rw [List.foldlM_cons, List.length_cons]
    cases h : s.append q e with
    | none =>
      rw [h] at haccepts
      simp at haccepts ⊢
      omega
    | some t =>
      have hrestored := State.append_restored h
      have hroom := State.appendRoom_append hq hu h
      rw [Option.bind_eq_bind, Option.bind_some, ih t (hrestored.queueLaw hq) (hrestored.quotaLaw hu)]
      omega

end Sys2Proof.Machine

/-! PROOF. Queues told on, transmitters and the commands of one line (O20 to O22, O26, O27, O30, O31, O42, O57, O58): what the Hold
Logic of a feeding line, an append and a transmitter's beginning leave of each line, and each command by these. -/

namespace Sys2Proof.Machine

set_option Elab.async false

/-! ### One queue's fields -/

@[simp] theorem Queue.withEntry_entries (q : Queue) (free : List Nat) (e : Entry) :
    (q.withEntry free e).entries = q.entries ++ [e] := by
  unfold Queue.withEntry; split <;> rfl

@[simp] theorem Queue.withoutOldest_entries (q : Queue) : q.withoutOldest.entries = q.entries.drop 1 := by
  unfold Queue.withoutOldest
  split
  · next h => simp [List.drop_eq_nil_of_le h]
  · split <;> rfl

/-! ### An update of the Host Port or the free list commutes with one of a line -/

theorem State.modLine_modHost (s : State) (n : LineNo) (f : Line → Line) (g : HostPort → HostPort) :
    (s.modLine n f).modHost g = (s.modHost g).modLine n f := rfl

theorem State.modLine_post (s : State) (n : LineNo) (f : Line → Line) (k : EventKind) (a b v : Byte) :
    (s.modLine n f).post k a b v = (s.post k a b v).modLine n f := rfl

theorem State.withFree_withFree (s : State) (a b : List Nat) : (s.withFree a).withFree b = s.withFree b := rfl

theorem State.modLine_withFree (s : State) (n : LineNo) (f : Line → Line) (free : List Nat) :
    (s.modLine n f).withFree free = (s.withFree free).modLine n f := rfl

/-- What each change of a line keeps, a change of one line of the state keeps of every line. -/
theorem State.modLine_keeps {P : Line → Prop} {s : State} {n m : LineNo} {f : Line → Line} (hf : ∀ l, P l → P (f l))
    (h : P (s.line m)) : P ((s.modLine n f).line m) := by
  rw [State.line_modLine]
  split
  · next hm => subst hm; exact hf _ h
  · exact h

/-! ### The feeder of a TQ -/

/-- A change of TQ n reaches at most one line: a BRIDGED one whose peer is n. -/
theorem State.feederSees_cases (s : State) (n : LineNo) : s.feederSees n = s ∨
    ∃ d, (s.line n).conn = some d ∧ (s.line d.peer).state = .bridged ∧ (s.line d.peer).conn.map (·.peer) = some n ∧
      s.feederSees n = s.modLine d.peer fun l => l.afterOccupancy (s.line n).tq.entries.length := by
  unfold State.feederSees
  split
  · exact .inl rfl
  · next d hd =>
    split
    · next h => exact .inr ⟨d, hd, h.1, h.2, rfl⟩
    · exact .inl rfl

theorem State.feederSees_of_none {s : State} {n : LineNo} (h : (s.line n).conn = none) : s.feederSees n = s := by
  simp [State.feederSees, h]

/-- A line that is not BRIDGED feeds no TQ. -/
theorem State.feederSees_line_of_ne {s : State} {n m : LineNo} (h : (s.line m).state ≠ .bridged) :
    (s.feederSees n).line m = s.line m := by
  obtain hs | ⟨d, -, hd, -, hs⟩ := s.feederSees_cases n <;> rw [hs]
  exact State.line_modLine_other _ _ fun hm => h (hm ▸ hd)

theorem State.feederSees_line_cases (s : State) (n m : LineNo) :
    (s.feederSees n).line m = s.line m ∨ ∃ k, (s.feederSees n).line m = (s.line m).afterOccupancy k := by
  obtain hs | ⟨d, -, -, -, hs⟩ := s.feederSees_cases n <;> rw [hs]
  · exact .inl rfl
  · rw [State.line_modLine]
    split
    · next hm => subst hm; exact .inr ⟨_, rfl⟩
    · exact .inl rfl

section
variable (s : State) (n m : LineNo)

@[simp] theorem State.feederSees_line_state : ((s.feederSees n).line m).state = (s.line m).state := by
  obtain h | ⟨k, h⟩ := s.feederSees_line_cases n m <;> simp [h]
@[simp] theorem State.feederSees_line_conn : ((s.feederSees n).line m).conn = (s.line m).conn := by
  obtain h | ⟨k, h⟩ := s.feederSees_line_cases n m <;> simp [h]
@[simp] theorem State.feederSees_line_rq : ((s.feederSees n).line m).rq = (s.line m).rq := by
  obtain h | ⟨k, h⟩ := s.feederSees_line_cases n m <;> simp [h]
@[simp] theorem State.feederSees_line_tq : ((s.feederSees n).line m).tq = (s.line m).tq := by
  obtain h | ⟨k, h⟩ := s.feederSees_line_cases n m <;> simp [h]
@[simp] theorem State.feederSees_line_monitor : ((s.feederSees n).line m).monitor = (s.line m).monitor := by
  obtain h | ⟨k, h⟩ := s.feederSees_line_cases n m <;> simp [h]
@[simp] theorem State.feederSees_line_ready : ((s.feederSees n).line m).ready = (s.line m).ready := by
  obtain h | ⟨k, h⟩ := s.feederSees_line_cases n m <;> simp [h]
@[simp] theorem State.feederSees_line_overrun : ((s.feederSees n).line m).overrun = (s.line m).overrun := by
  obtain h | ⟨k, h⟩ := s.feederSees_line_cases n m <;> simp [h]

theorem State.feederSees_line_tx (h : (s.line m).tx ≠ .idle) : ((s.feederSees n).line m).tx = (s.line m).tx := by
  obtain hs | ⟨k, hs⟩ := s.feederSees_line_cases n m <;> rw [hs]
  exact Line.afterOccupancy_tx _ k h

@[simp] theorem State.feederSees_freeList : (s.feederSees n).freeList = s.freeList := by
  obtain h | ⟨d, -, -, -, h⟩ := s.feederSees_cases n <;> rw [h]; rfl
@[simp] theorem State.feederSees_host : (s.feederSees n).host = s.host := by
  obtain h | ⟨d, -, -, -, h⟩ := s.feederSees_cases n <;> rw [h]; rfl
@[simp] theorem State.feederSees_standing : (s.feederSees n).standing = s.standing := by
  obtain h | ⟨d, -, -, -, h⟩ := s.feederSees_cases n <;> rw [h]; rfl
@[simp] theorem State.feederSees_record (i : SlotNo) : (s.feederSees n).record i = s.record i := by
  rw [State.record, State.feederSees_standing]; rfl
end

/-! ### An entry stored, and an entry begun -/

section
variable (l : Line) (e : Entry)

theorem Line.begins_cases : (e.kind = .brk ∧ l.begins e =
    { l with tx := .breakSpacing l.settings.format
             breakTimer := if l.settings.breakLength = 0 then none else some (l.settings.breakLength.toNat + 1) }) ∨
    (e.kind ≠ .brk ∧ l.begins e = { l with tx := .char e.value l.settings.format }) := by
  unfold Line.begins
  split
  · next h => exact .inl ⟨h, rfl⟩
  · next h => exact .inr ⟨h, rfl⟩

@[simp] theorem Line.begins_state : (l.begins e).state = l.state := by
  obtain ⟨-, h⟩ | ⟨-, h⟩ := l.begins_cases e <;> rw [h]
@[simp] theorem Line.begins_conn : (l.begins e).conn = l.conn := by
  obtain ⟨-, h⟩ | ⟨-, h⟩ := l.begins_cases e <;> rw [h]
@[simp] theorem Line.begins_rq : (l.begins e).rq = l.rq := by
  obtain ⟨-, h⟩ | ⟨-, h⟩ := l.begins_cases e <;> rw [h]
@[simp] theorem Line.begins_tq : (l.begins e).tq = l.tq := by
  obtain ⟨-, h⟩ | ⟨-, h⟩ := l.begins_cases e <;> rw [h]
@[simp] theorem Line.begins_monitor : (l.begins e).monitor = l.monitor := by
  obtain ⟨-, h⟩ | ⟨-, h⟩ := l.begins_cases e <;> rw [h]
@[simp] theorem Line.begins_ready : (l.begins e).ready = l.ready := by
  obtain ⟨-, h⟩ | ⟨-, h⟩ := l.begins_cases e <;> rw [h]
@[simp] theorem Line.begins_overrun : (l.begins e).overrun = l.overrun := by
  obtain ⟨-, h⟩ | ⟨-, h⟩ := l.begins_cases e <;> rw [h]

theorem Line.begins_tx_ne_idle : (l.begins e).tx ≠ .idle := by
  obtain ⟨-, h⟩ | ⟨-, h⟩ := l.begins_cases e <;> rw [h] <;> simp
end

section
variable (s : State) (n m : LineNo) (e : Entry)

@[simp] theorem State.stored_line_state : ((s.stored n e).line m).state = (s.line m).state := by
  rw [State.stored, State.feederSees_line_state, State.line_modLine]; split <;> simp_all
@[simp] theorem State.stored_line_conn : ((s.stored n e).line m).conn = (s.line m).conn := by
  rw [State.stored, State.feederSees_line_conn, State.line_modLine]; split <;> simp_all
@[simp] theorem State.stored_line_monitor : ((s.stored n e).line m).monitor = (s.line m).monitor := by
  rw [State.stored, State.feederSees_line_monitor, State.line_modLine]; split <;> simp_all
@[simp] theorem State.stored_line_overrun : ((s.stored n e).line m).overrun = (s.line m).overrun := by
  rw [State.stored, State.feederSees_line_overrun, State.line_modLine]; split <;> simp_all
@[simp] theorem State.stored_line_ready : ((s.stored n e).line m).ready = (s.line m).ready := by
  rw [State.stored, State.feederSees_line_ready, State.line_modLine]; split <;> simp_all
@[simp] theorem State.stored_line_tq : ((s.stored n e).line n).tq = (s.line n).tq.withEntry s.freeList e := by
  rw [State.stored, State.feederSees_line_tq, State.line_modLine_same]; rfl
@[simp] theorem State.stored_host : (s.stored n e).host = s.host := by simp [State.stored]
@[simp] theorem State.stored_freeList : (s.stored n e).freeList = (s.line n).tq.freeAfter s.freeList := by simp [State.stored]
@[simp] theorem State.stored_record (i : SlotNo) : (s.stored n e).record i = s.record i := by simp [State.stored]

theorem State.stored_line_tx (h : (s.line m).tx ≠ .idle) : ((s.stored n e).line m).tx = (s.line m).tx := by
  have hb : (((s.withFree ((s.line n).tq.freeAfter s.freeList)).modLine n fun l =>
      { l with tq := l.tq.withEntry s.freeList e }).line m).tx = (s.line m).tx := by
    rw [State.line_modLine]; split <;> simp_all
  rw [State.stored, State.feederSees_line_tx _ _ _ (by rw [hb]; exact h), hb]

/-- An entry stored for a line that is not BRIDGED changes nothing of it but its TQ. -/
theorem State.stored_line_of_ne {s : State} {n : LineNo} (h : (s.line n).state ≠ .bridged) (e : Entry) :
    (s.stored n e).line n = { s.line n with tq := (s.line n).tq.withEntry s.freeList e } := by
  rw [State.stored, State.feederSees_line_of_ne (by simpa using h), State.line_modLine_same]
  rfl

@[simp] theorem State.begun_line_state : ((s.begun n e).line m).state = (s.line m).state := by
  rw [State.begun, State.feederSees_line_state, State.line_modLine]; split <;> simp_all
@[simp] theorem State.begun_line_conn : ((s.begun n e).line m).conn = (s.line m).conn := by
  rw [State.begun, State.feederSees_line_conn, State.line_modLine]; split <;> simp_all
@[simp] theorem State.begun_line_monitor : ((s.begun n e).line m).monitor = (s.line m).monitor := by
  rw [State.begun, State.feederSees_line_monitor, State.line_modLine]; split <;> simp_all
@[simp] theorem State.begun_line_overrun : ((s.begun n e).line m).overrun = (s.line m).overrun := by
  rw [State.begun, State.feederSees_line_overrun, State.line_modLine]; split <;> simp_all
@[simp] theorem State.begun_line_ready : ((s.begun n e).line m).ready = (s.line m).ready := by
  rw [State.begun, State.feederSees_line_ready, State.line_modLine]; split <;> simp_all
@[simp] theorem State.begun_line_tq : ((s.begun n e).line n).tq = (s.line n).tq.withoutOldest := by
  rw [State.begun, State.feederSees_line_tq, State.line_modLine_same]; simp
@[simp] theorem State.begun_host : (s.begun n e).host = s.host := by simp [State.begun]
@[simp] theorem State.begun_record (i : SlotNo) : (s.begun n e).record i = s.record i := by simp [State.begun]

theorem State.begun_line_tx_ne_idle : ((s.begun n e).line n).tx ≠ .idle := by
  have hb : (((s.withFree (s.freeList ++ (s.line n).tq.returned)).modLine n fun l =>
      { l with tq := l.tq.withoutOldest }.begins e).line n).tx ≠ .idle := by
    rw [State.line_modLine_same]; exact Line.begins_tx_ne_idle _ e
  rw [State.begun, State.feederSees_line_tx _ _ _ hb]
  exact hb

theorem State.begun_line_of_ne {s : State} {n : LineNo} (h : (s.line n).state ≠ .bridged) (e : Entry) :
    (s.begun n e).line n = { s.line n with tq := (s.line n).tq.withoutOldest }.begins e := by
  rw [State.begun, State.feederSees_line_of_ne (by simpa using h), State.line_modLine_same]
  rfl
end

/-! ### What an evaluation comes to -/

/-- An evaluation of a line that no record can join changes nothing. -/
theorem State.Evaluated.refl_of {s : State} {n : LineNo}
    (h : (s.line n).state = .host → (s.line n).tq.entries = [] → (s.line n).ready = false) : s.Evaluated s n := by
  refine ⟨fun _ => rfl, fun i c _ hn _ _ hc => ?_⟩
  obtain ⟨hs, he, hr⟩ := hc n (hn.imp Eq.symm Eq.symm)
  simp [h hs he] at hr

/-- An evaluation leaves a busy transmitter its item. -/
theorem State.evaluateLine_tx_ne_idle {s : State} {m : LineNo} (n : LineNo) (h : (s.line m).tx ≠ .idle) :
    ((s.evaluateLine n).line m).tx ≠ .idle := by
  have hold : ∀ (t : State) (x : LineNo), (t.line m).tx ≠ .idle → ((t.holdEval x).line m).tx ≠ .idle := by
    intro t x ht
    rw [State.holdEval_eq]
    exact State.modLine_keeps (P := fun l => l.tx ≠ .idle) (fun l => Line.afterOccupancy_tx_ne_idle l _) ht
  have keeps : ∀ (t : State) (x : LineNo) (f : Line → Line), (∀ l, (f l).tx = l.tx) → (t.line m).tx ≠ .idle →
      ((t.modLine x f).line m).tx ≠ .idle := fun t x f hf =>
    State.modLine_keeps (P := fun l => l.tx ≠ .idle) fun l hl => by rw [hf l]; exact hl
  have bridge : ∀ (t : State) (x y : LineNo), (t.line m).tx ≠ .idle → ((t.bridge x y).line m).tx ≠ .idle := by
    intro t x y ht
    refine keeps _ _ _ (fun _ => rfl) (keeps _ _ _ (fun _ => rfl) (hold _ _ (hold _ _ ?_)))
    exact keeps _ _ _ (fun _ => rfl) (keeps _ _ _ (fun _ => rfl) ht)
  have slot : ∀ (t : State) (i : SlotNo), (t.line m).tx ≠ .idle → ((t.evaluateSlot i).line m).tx ≠ .idle := by
    intro t i ht
    unfold State.evaluateSlot
    split
    · split
      · rw [State.establish, State.post_line, State.setRecord_line]
        exact bridge _ _ _ (keeps _ _ _ (fun _ => rfl) (keeps _ _ _ (fun _ => rfl) ht))
      · exact ht
    all_goals exact ht
  refine List.foldlRecOn (motive := fun t : State => (t.line m).tx ≠ .idle) allSlots _ h fun t ht i _ => ?_
  split
  · exact slot t i ht
  · exact ht

/-! ### Transmitters -/

theorem State.mayBegin_of_canBegin {s : State} {n : LineNo} {e : Entry} {rest : List Entry} (h : (s.line n).CanBegin)
    (he : (s.line n).tq.entries = e :: rest) : s.mayBegin n = s.begun n e := by
  obtain ⟨ht, hc, ho, -⟩ := h
  simp [State.mayBegin, ht, hc, ho, he]

theorem State.mayBegin_canBegin {s : State} {n : LineNo} (h : (s.line n).CanBegin) :
    ∃ e rest, (s.line n).tq.entries = e :: rest ∧ s.mayBegin n = s.begun n e := by
  obtain ⟨e, rest, he⟩ := List.exists_cons_of_ne_nil h.2.2.2
  exact ⟨e, rest, he, State.mayBegin_of_canBegin h he⟩

/-- A transmitter that begins an entry is busy with it. -/
theorem State.mayBegin_line_tx {s : State} {n : LineNo} (h : (s.line n).CanBegin) : ((s.mayBegin n).line n).tx ≠ .idle := by
  obtain ⟨e, rest, -, hb⟩ := State.mayBegin_canBegin h
  rw [hb]
  exact s.begun_line_tx_ne_idle n e

/-- A transmitter that begins its last entry has its line evaluated, and nothing else is told of it (R30, R140). -/
theorem State.kickTx_of_canBegin {s : State} {n : LineNo} (h : (s.line n).CanBegin) : s.kickTx n =
    if ((s.mayBegin n).line n).tq.entries = [] then (s.mayBegin n).evaluateLine n else s.mayBegin n := by
  rw [State.kickTx_eq]
  obtain ⟨ht, hc, ho, he⟩ := h
  by_cases hempty : ((s.mayBegin n).line n).tq.entries = []
  · rw [if_pos ⟨ht, hc, ho, he, hempty⟩, if_pos hempty, State.tqEmptied,
      State.drainCheck_of_sending (.inr (State.mayBegin_line_tx ⟨ht, hc, ho, he⟩))]
  · rw [if_neg fun hall => hempty hall.2.2.2.2, if_neg hempty]

theorem State.kickTx_of_not_canBegin {s : State} {n : LineNo} (h : ¬ (s.line n).CanBegin) : s.kickTx n = s.mayBegin n := by
  rw [State.kickTx_eq, if_neg fun hall => h ⟨hall.1, hall.2.1, hall.2.2.1, hall.2.2.2.1⟩]

/-- What the model's kick of a transmitter comes to, as the statements put it (R9, R30, R140). -/
theorem State.kickTx_begins (s : State) (n : LineNo) : s.Begins (s.kickTx n) n := by
  refine ⟨fun h => ?_, State.kickTx_of_not_canBegin⟩
  rw [State.kickTx_of_canBegin h]
  split
  · exact State.evaluateLine_evaluated _ n
  · next he => exact .refl_of fun _ h0 => absurd h0 he

theorem State.kickTx_line_tx {s : State} {n : LineNo} (h : (s.line n).CanBegin) : ((s.kickTx n).line n).tx ≠ .idle := by
  rw [State.kickTx_of_canBegin h]
  split
  · exact State.evaluateLine_tx_ne_idle n (State.mayBegin_line_tx h)
  · exact State.mayBegin_line_tx h

/-! ### Appends to a TQ -/

theorem State.appendTold_of_refused {s : State} {q : QueueId} {e : Entry} (h : ¬ s.Accepts q) : s.appendTold q e = none := by
  simp [State.appendTold, (State.append_eq_none_iff s q e).mpr h]

theorem State.append_of_accepts {s : State} {q : QueueId} (e : Entry) (h : s.Accepts q) : ∃ t, s.append q e = some t :=
  Option.isSome_iff_exists.mp ((State.append_isSome_iff s q e).mpr h)

/-- An accepted append to a TQ is stored, and a TQ that was empty kicks its transmitter (R23, R30). -/
theorem State.appendTold_of_accepts {s : State} {n : LineNo} (e : Entry) (h : s.Accepts (.tq n)) :
    s.appendTold (.tq n) e = some (if (s.line n).tq.entries = [] then (s.stored n e).kickTx n else s.stored n e) := by
  obtain ⟨t, ht⟩ := State.append_of_accepts e h
  rw [State.appendTold, ht, Option.map_some, State.tellAppended, State.append_tellHold_eq_stored ht]
  simp only [State.queue, List.isEmpty_iff]

section
variable {s : State} {n : LineNo} (e : Entry) (ha : s.Accepts (.tq n)) (hs : (s.line n).state = .host)
include ha hs

/-- An entry waits behind others, for a busy transmitter and on an output-held line. -/
theorem State.appendTold_waits (hw : (s.line n).tq.entries ≠ [] ∨ (s.line n).tx ≠ .idle ∨
    (s.line n).codePending = false ∧ (s.line n).outputHeld = true) : s.appendTold (.tq n) e = some (s.stored n e) := by
  have hline := State.stored_line_of_ne (s := s) (n := n) (by simp [hs]) e
  rw [State.appendTold_of_accepts e ha]
  split
  · next he =>
    congr 1
    rcases hw with hw | hw | ⟨hc, ho⟩
    · exact absurd he hw
    · exact State.kickTx_of_busy (by rw [hline]; exact hw)
    · exact State.kickTx_of_held (by rw [hline]; exact hc) (by rw [hline]; exact ho)
  · rfl

/-- The only entry of a line whose transmitter may begin it is begun at once. -/
theorem State.appendTold_begins (he : (s.line n).tq.entries = []) (ht : (s.line n).tx = .idle)
    (hc : (s.line n).codePending = false) (ho : (s.line n).outputHeld = false) :
    ∃ t, s.appendTold (.tq n) e = some t ∧ ((s.stored n e).begun n e).Evaluated t n := by
  have hline := State.stored_line_of_ne (s := s) (n := n) (by simp [hs]) e
  have hcan : ((s.stored n e).line n).CanBegin := by
    rw [hline]; exact ⟨ht, hc, ho, by simp⟩
  refine ⟨(s.stored n e).kickTx n, by rw [State.appendTold_of_accepts e ha, if_pos he], ?_⟩
  rw [← State.mayBegin_of_canBegin (rest := []) hcan (by simp [he])]
  exact (State.kickTx_begins _ n).1 hcan

end

/-- Settles O21: a HOST line's append by the two outcomes of `appendTold`. -/
theorem txCharAppends : Obligations.tx_char_appends := by
  rintro s n v hs rfl e rfl
  have hexec : exec (.txChar v) s = .next (writeTxChar v s) := whileRunning_of_high hs.1 _
  have hload : ¬ s.isLoading = true := by simp [State.isLoading_eq_false hs.2]
  have happend : (s.line s.host.lineSelect).state = .host → writeTxChar v s =
      (s.appendTold (.tq s.host.lineSelect) { kind := .data, value := v }).getD s.refuseTx := by
    intro hh
    rw [writeTxChar, if_neg hload, if_neg (by simp [hh])]
    cases h : s.appendTold (.tq s.host.lineSelect) { kind := .data, value := v } <;> simp [State.selectedTq, h]
  refine ⟨fun hr => ?refused, fun hh ha => ⟨fun hw => ?waits, fun he ht hc ho => ?begins⟩⟩
  case refused =>
    rw [hexec]
    by_cases hh : (s.line s.host.lineSelect).state = .host
    · rw [happend hh, State.appendTold_of_refused (hr.resolve_left (not_not_intro hh))]
      rfl
    · rw [writeTxChar, if_neg hload, if_pos hh]
      rfl
  case waits =>
    rw [hexec, happend hh, State.appendTold_waits _ ha hh hw]
    rfl
  case begins =>
    obtain ⟨t, happ, hev⟩ := State.appendTold_begins { kind := .data, value := v } ha hh he ht hc ho
    have hne : ((s.stored s.host.lineSelect { kind := .data, value := v }).line s.host.lineSelect).state ≠ .bridged := by simp [hh]
    refine ⟨t, by rw [hexec, happend hh, happ]; rfl, hev, ?_⟩
    rw [State.begun_line_of_ne hne, State.stored_line_of_ne (by simp [hh])]
    simp [Line.begins]

/-- Settles O22: as O21, with the break's spacing and its timer. -/
theorem sendBreakAppends : Obligations.send_break_appends := by
  rintro s n h hh e rfl
  refine ⟨fun hr => ?refused, fun ha => ⟨fun hw => ?waits, fun he ht hc ho => ?begins⟩⟩
  case refused =>
    exact exec_checkLine_refused (c := .sendBreak) (r := .noQuota) h rfl (by simp [hh, State.appendTold_of_refused hr]) rfl
  case waits =>
    exact exec_checkLine_accepted (c := .sendBreak) h rfl (by simp [hh, State.appendTold_waits _ ha hh hw]) rfl
  case begins =>
    obtain ⟨t, happ, hev⟩ := State.appendTold_begins { kind := .brk, value := 0 } ha hh he ht hc ho
    have hne : ((s.stored n { kind := .brk, value := 0 }).line n).state ≠ .bridged := by simp [hh]
    refine ⟨t, exec_checkLine_accepted (c := .sendBreak) h rfl (by simp only [hh, happ]) rfl, hev, fun hlen => ?_⟩
    have hlen0 : (s.line n).settings.breakLength ≠ 0 := by rintro h0; simp [h0] at hlen
    rw [State.begun_line_of_ne hne, State.stored_line_of_ne (by simp [hh])]
    exact ⟨rfl, if_neg hlen0⟩

/-! ### A read of RX_CHAR -/

/-- Settles O20: the removal, then the Hold Logic of a line whose destination is its RQ. -/
theorem rxCharTakesOldestEntry : Obligations.rx_char_takes_oldest_entry := by
  rintro s n hs rfl
  have hexec : exec .rxChar s = .next (readRxChar s) := whileReading_of_high hs _
  refine ⟨fun he => ?empty, fun e rest he u hu => ?taken⟩
  case empty =>
    rw [hexec, readRxChar, State.removeOldest_of_nil (q := s.selectedRq) he]
    rfl
  case taken =>
    have hread : readRxChar s = (u.modLine s.host.lineSelect fun l => { l with rq := l.rq.withoutOldest }).tellHold
        (.rq s.host.lineSelect) := by
      rw [readRxChar, State.removeOldest_eq (q := s.selectedRq) he, hu, ← charValue_some]
      rfl
    have hline : ∀ m, u.line m = s.line m := fun m => by rw [hu]; rfl
    refine ⟨fun hb => ?_, fun hb hc => ?_⟩
    · rw [hexec, hread, State.tellHold_rq (by simpa [hline] using hb), State.modLine_modLine]
      simp [hline, he]
    · rw [hexec, hread, State.tellHold_of_none (State.holdNeighbour_rq_of_bridged (by simpa [hline] using hb)
        (by simpa [hline] using hc))]

/-! ### The commands of one line -/

/-- Settles O26: the opening is the change of the line and its evaluation. -/
theorem openLineAttaches : Obligations.open_line_attaches := by
  intro s n h hs
  exact ⟨s.openLine n, exec_checkLine_accepted (c := .openLine) h rfl (if_pos hs) rfl, State.evaluateLine_evaluated _ n⟩

/-- CLOSE_LINE's discards and its change of the line are one change of the line (R72). -/
theorem State.closeLine_eq (s : State) (n : LineNo) : s.closeLine n =
    (s.withFree (s.freeList ++ (s.line n).rq.chain ++ (s.line n).tq.chain)).modLine n fun l =>
      { l with rq := l.rq.emptied, tq := l.tq.emptied, state := .closed, rx := .disabled, inputHeld := false, announced := .running
               receivedPause := false, overrun := false } := by
  rw [State.closeLine, State.discard_eq_emptied, State.discard_eq_emptied, State.setQueue_rq, State.setQueue_tq,
    State.modLine_withFree, State.modLine_modLine, State.modLine_modLine]
  simp only [State.queue, State.withFree_withFree, State.line_modLine_same, State.withFree_line, State.modLine_freeList,
    State.withFree_freeList]
  exact State.modLine_congr rfl

/-- Settles O27: the accepted command is that change. -/
theorem closeLineDetaches : Obligations.close_line_detaches := by
  intro s n h hs
  refine exec_checkLine_accepted (c := .closeLine) h rfl ?_ rfl
  simp only [hs, State.closeLine_eq]

/-- The Hold Logic brought into line with new hold settings, as one change of a line that is not BRIDGED (R54). -/
theorem State.applyFlow_eq {s : State} {n : LineNo} (h : HoldSettings) (hb : (s.line n).state ≠ .bridged) :
    s.applyFlow n h = (s.modLine n fun l => { l with
      hold := h
      inputHeld := ({ l with hold := h } : Line).heldAt l.rq.entries.length
      announced := if l.hold.method = h.method then l.announced else .running
      receivedPause := if l.hold.method = h.method then l.receivedPause else false }).kickTx n := by
  have hdest : (s.modLine n fun l => { l with hold := h }).destination n = .rq n := State.destination_of_ne (by simpa using hb)
  simp only [State.applyFlow, State.compareMarks, hdest, State.modLine_modLine]
  by_cases hm : (s.line n).hold.method = h.method
  · simp only [hm, bne_self_eq_false, Bool.false_eq_true, if_false]
    congr 1
    apply State.modLine_congr
    simp [hm, marksVerdict_eq_heldAt, State.queue, Queue.occupancy]
  · simp only [bne_iff_ne, ne_eq, hm, not_false_eq_true, if_true]
    congr 1
    apply State.modLine_congr
    simp [hm, marksVerdict_eq_heldAt, State.queue, Queue.occupancy]

/-- Settles O30: SET_FLOW's change of the line, then its transmitter's beginning. -/
theorem setFlowStoresAndRealigns : Obligations.set_flow_stores_and_realigns := by
  intro s n m h hs h1 h23 h2 h128 hlh
  have hhold : holdOf (s.param 1) (s.param 2) (s.param 3) (s.param 4) (s.param 5) =
      some ⟨m, s.param 2, s.param 3, s.param 4, s.param 5⟩ := by
    rw [h1]; exact holdOf_codes m h23 h2 h128 (by omega) hlh
  refine ⟨s.applyFlow n ⟨m, s.param 2, s.param 3, s.param 4, s.param 5⟩, exec_checkLine_accepted (c := .setFlow) h rfl ?_ rfl, ?_⟩
  · simp only [hhold, (State.settable_iff s n).mpr hs, if_true]
  · rw [State.applyFlow_eq _ (by rcases hs with hs | hs <;> simp [hs])]
    exact State.kickTx_begins _ n

/-- A discard of an RQ told to the line's own Hold Logic, which a BRIDGED line's is not (R28, R42). -/
theorem State.discardRq_eq {s : State} {n : LineNo} (hb : (s.line n).state = .bridged → (s.line n).conn ≠ none) :
    s.discardRq n = (s.withFree (s.freeList ++ (s.line n).rq.chain)).modLine n fun l =>
      if l.state = .bridged then { l with rq := l.rq.emptied } else { l with rq := l.rq.emptied }.afterOccupancy 0 := by
  rw [State.discardRq, State.discard_eq_emptied, State.setQueue_rq]
  by_cases h : (s.line n).state = .bridged
  · rw [State.tellHold_of_none (State.holdNeighbour_rq_of_bridged (by simpa using h) (by simpa using hb h))]
    exact State.modLine_congr (by simp [h, State.queue])
  · rw [State.tellHold_rq (by simpa using h), State.modLine_modLine]
    exact State.modLine_congr (by simp [h, State.queue, Queue.emptied])

/-- A discard of a HOST line's TQ is told to nobody, and evaluates the line (R28, R140). -/
theorem State.discardTq_evaluated {s : State} {n : LineNo} (hs : (s.line n).state = .host) (hc : (s.line n).conn = none) :
    ((s.withFree (s.freeList ++ (s.line n).tq.chain)).modLine n fun l => { l with tq := l.tq.emptied }).Evaluated
      (s.discardTq n) n := by
  have hdiscard : s.discard (.tq n) =
      (s.withFree (s.freeList ++ (s.line n).tq.chain)).modLine n fun l => { l with tq := l.tq.emptied } := by
    rw [State.discard_eq_emptied, State.setQueue_tq]
    exact State.modLine_congr rfl
  rw [State.discardTq, hdiscard, State.tellHold_tq, State.feederSees_of_none (by simpa using hc), State.tqEmptied,
    State.drainCheck_of_ne (by simp [hs])]
  exact State.evaluateLine_evaluated _ n

/-- Settles O31: the discards that P1 names. -/
theorem flushDiscards : Obligations.flush_discards := by
  rintro s n h u hu
  have hcmd : ∀ v : Byte, s.param 1 = v → v ≠ 0 ∧ ¬ 3 < v.toNat → (s.line n).state ≠ .closed →
      (v ≠ 1 → (s.line n).state = .host) → ∀ t, (if v = 1 then (if v = 2 then s else s.discardRq n) else
        (if v = 2 then s else s.discardRq n).discardTq n) = t → exec .flush s = .next (t.withResult .done) := by
    rintro v rfl ⟨hv0, hv3⟩ hc hh t rfl
    refine exec_checkLine_accepted (c := .flush) h rfl ?_ rfl
    have hstate : ¬ (s.param 1 ≠ 1 ∧ (s.line n).state ≠ .host) := fun hall => hall.2 (hh hall.1)
    exact (if_neg (by tauto)).trans ((if_neg hc).trans (if_neg hstate))
  refine ⟨fun h1 hc hb => ?_, fun hb hm => ?_, fun hh hn => ⟨fun h2 => ?_, fun h3 => ?_⟩⟩
  · exact hcmd 1 h1 (by decide) hc (fun hne => absurd rfl hne) u (by simp [hu, State.discardRq_eq hb])
  · rw [hu, State.line_modLine_same, State.withFree_line, if_neg hb, Line.afterOccupancy_inputHeld, Line.heldAt]
    simp only [Nat.le_zero, Nat.zero_le, if_true]
    rw [if_neg (by omega)]
  · refine ⟨s.discardTq n, hcmd 2 h2 (by decide) (by simp [hh]) (fun _ => hh) _ (by simp), State.discardTq_evaluated hh hn⟩
  · have hrq : s.discardRq n = u := by rw [hu]; exact State.discardRq_eq (by simp [hh])
    have hline : (u.line n).state = .host ∧ (u.line n).conn = none ∧ (u.line n).tq = (s.line n).tq := by
      rw [hu]; simp [hh, hn]
    refine ⟨u.discardTq n, hcmd 3 h3 (by decide) (by simp [hh]) (fun _ => hh) _ (by simp [hrq]), ?_⟩
    rw [← hline.2.2]
    exact State.discardTq_evaluated hline.1 hline.2.1

/-! ### Items finished, HLDI and flow codes -/

/-- A DRAINING line returned to HOST is evaluated (R113, R140). -/
theorem State.returnToHost_evaluated (s : State) (n : LineNo) : (s.returned n).Evaluated (s.returnToHost n) n := by
  have h : ((s.modLine n fun l => { l with drainTimer := none, state := .host }).post .drained (lineByte n) noLine
      (saturated (s.line n).tally)).modLine n (fun l => { l with tally := 0 }) = s.returned n := by
    rw [State.modLine_post, State.modLine_modLine]
    rfl
  rw [State.returnToHost, h]
  exact State.evaluateLine_evaluated _ n

theorem State.drainCheck_of_drained {s : State} {n : LineNo} (hs : (s.line n).state = .draining)
    (he : (s.line n).tq.entries = []) (ht : (s.line n).tx = .idle) : s.drainCheck n = s.returnToHost n := by
  simp [State.drainCheck, Line.drained, hs, he, ht]

/-- What an item changes of the line before it is not seen by the entry begun after it. -/
theorem State.begun_of_idle (s : State) (n : LineNo) (e : Entry) :
    (s.modLine n fun l => { l with tx := .idle }).begun n e = s.begun n e := by
  rw [State.begun, State.begun, State.line_modLine_same, State.modLine_freeList, State.modLine_withFree, State.modLine_modLine]
  rfl

theorem itemDone_eq {s : State} {n : LineNo} (ht : (s.line n).tx ≠ .idle) (hb : (s.line n).tx.isSpacing = false) :
    itemDone n s = if (((s.modLine n fun l => { l with tx := .idle }).kickTx n).line n).tx = .idle then
      ((s.modLine n fun l => { l with tx := .idle }).kickTx n).drainCheck n
    else (s.modLine n fun l => { l with tx := .idle }).kickTx n := by
  unfold itemDone
  cases htx : (s.line n).tx with
  | idle => exact absurd htx ht
  | breakSpacing fmt => simp [htx, TxState.isSpacing] at hb
  | char v fmt => simp only [beq_iff_eq]
  | flow c fmt => simp only [beq_iff_eq]
  | breakTail fmt => simp only [beq_iff_eq]

/-- Settles O57: the kick of the transmitter after its item, in each case of what it finds. -/
theorem itemFinishedBeginsNext : Obligations.item_finished_begins_next := by
  intro s n hs ht hb
  have hexec : exec (.itemFinished n) s = .next (itemDone n s) := whileRunning_of_high hs _
  rw [itemDone_eq ht hb] at hexec
  set u := s.modLine n fun l => { l with tx := .idle } with hu
  have hline : u.line n = { s.line n with tx := .idle } := by rw [hu, State.line_modLine_same]
  refine ⟨fun hc => ?code, fun hc => ⟨fun hw => ⟨fun hd => ?idle, fun hd he => ?drained⟩, fun e rest he ho => ?entry⟩⟩
  case code =>
    have hk : u.kickTx n = s.codeBegun n := by
      rw [State.kickTx_of_code (by rw [hline]) (by rw [hline]; exact hc), hu, State.modLine_modLine]
      exact State.modLine_congr (by simp [Line.codeValue, announceOf_eq])
    rw [hexec, hk, State.codeBegun, State.line_modLine_same, if_neg (by simp)]
  case idle =>
    have hk : u.kickTx n = u := by
      rcases hw with ho | he
      · exact State.kickTx_of_held (by rw [hline]; exact hc) (by rw [hline]; exact ho)
      · exact State.kickTx_of_empty (by rw [hline]; exact hc) (by rw [hline]; exact he)
    rw [hexec, hk, if_pos (by rw [hline])]
    congr 1
    rcases hd with hd | hd
    · exact State.drainCheck_of_ne (by rw [hline]; exact hd)
    · exact State.drainCheck_of_sending (.inl (by rw [hline]; exact hd))
  case drained =>
    have hk : u.kickTx n = u := State.kickTx_of_empty (by rw [hline]; exact hc) (by rw [hline]; exact he)
    rw [hexec, hk, if_pos (by rw [hline]), State.drainCheck_of_drained (by rw [hline]; exact hd) (by rw [hline]; exact he) (by rw [hline])]
    exact ⟨_, rfl, State.returnToHost_evaluated u n⟩
  case entry =>
    have hcan : (u.line n).CanBegin := by rw [hline]; exact ⟨rfl, hc, ho, by simp [he]⟩
    rw [hexec, if_neg (State.kickTx_line_tx hcan)]
    refine ⟨_, rfl, ?_⟩
    rw [← State.begun_of_idle, ← hu, ← State.mayBegin_of_canBegin (rest := rest) hcan (by rw [hline]; exact he)]
    exact (State.kickTx_begins u n).1 hcan

/-- Settles O58: the change of the level, then the transmitter's beginning. -/
theorem hldiHoldsOutput : Obligations.hldi_holds_output := by
  intro s n hs
  have hexec : ∀ level, exec (.hldiChange n level) s = .next ((s.modLine n fun l => { l with hldi := level }).kickTx n) :=
    fun level => congrArg Host.Outcome.next (if_neg (by simp [hs]))
  refine ⟨fun level => ⟨_, hexec level, State.kickTx_begins _ n⟩, fun hm => ?_⟩
  have hcode : ∀ level, ((s.modLine n fun l => { l with hldi := level }).line n).codePending = false := fun level => by
    simp [Line.codePending, hm]
  have hheld : ∀ level, ((s.modLine n fun l => { l with hldi := level }).line n).outputHeld = level := fun level => by
    simp [Line.outputHeld, hm]
  refine ⟨?_, hheld true, fun ht he => ⟨by simpa using ht, hcode false, hheld false, by simpa using he⟩⟩
  rw [hexec true, State.kickTx_of_held (hcode true) (hheld true)]

/-- A completed frame is delivered behind the receiver's own change (R6, R8). -/
theorem exec_frameComplete {s : State} {n : LineNo} {fmt : Format} (hs : s.resetLow = false) (hrx : (s.line n).rx = .frame fmt)
    (data : Byte) (parity stop : Bool) : exec (.frameComplete n data parity stop) s =
      .next ((s.modLine n fun l => { l with rx := rxAfter fmt (classify fmt data parity stop) }).deliver n
        (classify fmt data parity stop)) := by
  refine (whileRunning_of_high hs (frameCompleted n data parity stop)).trans ?_
  simp [frameCompleted, hrx]

/-- Settles O42: the Hold Logic's two codes. -/
theorem flowCodesAreConsumed : Obligations.flow_codes_are_consumed := by
  intro s n fmt data parity v hs hrx hcl hm
  rw [exec_frameComplete hs hrx, hcl]
  set u := s.modLine n fun l => { l with rx := rxAfter fmt { kind := .data, value := v } } with hu
  have hhold : (u.line n).hold = (s.line n).hold := by rw [hu, State.line_modLine_same]
  refine ⟨fun hp => ?_, fun hr hp => ?_⟩
  · have hc : u.consumeCode n { kind := .data, value := v } = some (u.modLine n fun l => { l with receivedPause := true }) := by
      simp [State.consumeCode, hhold, hm, hp]
    rw [State.deliver, hc, hu, State.modLine_modLine]
    rfl
  · have hc : u.consumeCode n { kind := .data, value := v } =
        some ((u.modLine n fun l => { l with receivedPause := false }).kickTx n) := by
      simp [State.consumeCode, hhold, hm, ← hr, hp]
    rw [State.deliver, hc, hu, State.modLine_modLine]
    exact ⟨_, rfl, State.kickTx_begins _ n⟩

end Sys2Proof.Machine

/-! PROOF. Calls, drains, received entries, ticks and the Standing List's arming (O8, O32 to O34, O39 to O41, O44, O47, O59, O60):
what an answer, a failure, a cut drain and a delivery come to, and each cause by these. -/

namespace Sys2Proof.Machine

set_option Elab.async false

/-! ### Reset (R180) -/

theorem State.resetAll_record (s : State) (r : Result) (i : SlotNo) : (s.resetAll r).record i = .empty := by
  have h : ∀ i, State.reset.record i = .empty := by decide
  exact h i

theorem State.resetAll_unmetTotal (s : State) (r : Result) : (s.resetAll r).unmetTotal = 32 := by
  have hq : ∀ q, ((s.resetAll r).queue q).unmet = 2 := by
    intro q
    cases q <;> simp [State.queue, Line.resetValue, factoryQueue, Queue.unmet, Queue.held]
  simp [State.unmetTotal, hq, allQueues]

/-- Settles O8: `State.resetAll` field by field. -/
theorem blocksAfterReset : Obligations.blocks_after_reset := by
  intro s
  refine ⟨s.resetAll .none, exec_resetPin s, fun h => exec_resetPart h, fun n => s.resetAll_line .none n, rfl,
    s.resetAll_unmetTotal .none, rfl, s.resetAll_record .none, rfl, rfl, rfl, rfl, rfl, fun n => ?_⟩
  simp [State.call, State.hldo, Line.outputHeld, Line.resetValue, factoryHold]

/-! ### Updates of two lines -/

/-- A second change of x, made after one of another line, joins the first. -/
theorem State.modLine_regroup (s : State) {x y : LineNo} (h : x ≠ y) (f g k : Line → Line) :
    ((s.modLine x f).modLine y g).modLine x k = (s.modLine x fun l => k (f l)).modLine y g := by
  rw [State.modLine_comm _ h.symm, State.modLine_modLine]

/-- Two changes of each of two lines are one change of each. -/
theorem State.modLine_regroup_two (s : State) {x y : LineNo} (h : x ≠ y) (f g k m : Line → Line) :
    (((s.modLine x f).modLine y g).modLine x k).modLine y m = (s.modLine x fun l => k (f l)).modLine y fun l => m (g l) := by
  rw [State.modLine_regroup s h, State.modLine_modLine]

/-- Two states with changes of the same two lines agree when the changes do on the lines as they stand. -/
theorem State.modLine_two_congr {s : State} {x y : LineNo} (h : x ≠ y) {f f' g g' : Line → Line} (hf : f (s.line x) = f' (s.line x))
    (hg : g (s.line y) = g' (s.line y)) : (s.modLine x f).modLine y g = (s.modLine x f').modLine y g' := by
  rw [State.modLine_congr hf]
  exact State.modLine_congr (by rw [State.line_modLine_other _ _ h.symm]; exact hg)

/-! ### Evaluations -/

/-- No record of a line that is not HOST is established (R140). -/
theorem State.evaluateLine_of_not_host {s : State} {n : LineNo} (h : (s.line n).state ≠ .host) : s.evaluateLine n = s :=
  (s.evaluateLine_evaluated n).1 fun _ _ _ hn hc => h (hc n (hn.imp Eq.symm Eq.symm)).1

section
variable (s : State) (i : SlotNo) {c : Contents} (hab : c.lineA ≠ c.lineB)

theorem State.withConnection_line (m : LineNo) : (s.withConnection i c).line m =
    ((s.modLine c.lineA fun l => { l.bridgedOn (standingPart c i .caller) 0 with idleTimer := idleTimerOf c.idleLimit }).modLine c.lineB
      fun l => l.bridgedOn (standingPart c i .called) 0).line m := rfl

include hab in
theorem State.withConnection_line_lineA : (s.withConnection i c).line c.lineA =
    { (s.line c.lineA).bridgedOn (standingPart c i .caller) 0 with idleTimer := idleTimerOf c.idleLimit } := by
  rw [State.withConnection_line, State.line_modLine_other _ _ hab, State.line_modLine_same]

include hab in
theorem State.withConnection_line_lineB : (s.withConnection i c).line c.lineB =
    (s.line c.lineB).bridgedOn (standingPart c i .called) 0 := by
  rw [State.withConnection_line, State.line_modLine_same, State.line_modLine_other _ _ hab.symm]

theorem State.withConnection_line_other {m : LineNo} (ha : m ≠ c.lineA) (hb : m ≠ c.lineB) :
    (s.withConnection i c).line m = s.line m := by
  rw [State.withConnection_line, State.line_modLine_other _ _ hb, State.line_modLine_other _ _ ha]
end

@[simp] theorem Line.bridgedOn_state (l : Line) (c : Connection) (k : Nat) : (l.bridgedOn c k).state = .bridged := by
  simp [Line.bridgedOn]

/-- A second evaluation of the same line finds nothing more to establish. -/
theorem State.evaluated_twice (s : State) (n : LineNo) : s.Evaluated ((s.evaluateLine n).evaluateLine n) n := by
  obtain ⟨hnone, hsome⟩ := s.evaluateLine_evaluated n
  refine ⟨fun h => by rw [hnone h, hnone h], fun i c hi hn hab hothers hc => ?_⟩
  have hbridged : ∀ m, m = c.lineA ∨ m = c.lineB → ((s.withConnection i c).line m).state = .bridged := by
    rintro m (rfl | rfl)
    · rw [s.withConnection_line_lineA i hab, Line.bridgedOn_state]
    · rw [s.withConnection_line_lineB i hab, Line.bridgedOn_state]
  rw [hsome i c hi hn hab hothers hc]
  exact State.evaluateLine_of_not_host (by rw [hbridged n (hn.imp Eq.symm Eq.symm)]; simp)

/-! ### CONNECT and the answer of a call -/

theorem startTimer_pos {k : Nat} (h : 0 < k) : startTimer k = some (k + 1) := if_neg (by omega)

/-- A line BRIDGED on a connection that has lost its answer timer before keeps it stopped. -/
theorem Line.bridgedOn_answerTimer (l : Line) (c : Connection) (k : Nat) (t : Timer) :
    ({ l with answerTimer := t } : Line).bridgedOn c k = { l.bridgedOn c k with answerTimer := t } := by
  have h : ∀ m : Line, ({ m with answerTimer := t } : Line).afterOccupancy k = { m.afterOccupancy k with answerTimer := t } := by
    intro m
    unfold Line.afterOccupancy
    by_cases hc : m.tx = .idle ∧ m.hold.method = .inband ∧ m.heldAt k ≠ announcedHeld m.announced
    · dsimp only
      rw [if_pos hc]
      exact if_pos hc
    · dsimp only
      rw [if_neg hc]
      exact if_neg hc
  exact congrArg (fun m : Line => { m with monitor := monitorAtStart c }) (h { l with state := .bridged, conn := some c })

/-- What was written into a line's record before it becomes BRIDGED on a connection is overwritten. -/
theorem Line.bridgedOn_conn (l : Line) (c : Connection) (k : Nat) (d : Option Connection) :
    ({ l with conn := d } : Line).bridgedOn c k = l.bridgedOn c k := rfl

/-- An answer bridges the caller and the called line and posts CONNECTED (R82). -/
theorem State.answer_eq {s : State} {x y : LineNo} {c d : Connection} (hxy : x ≠ y) (hx : (s.line x).conn = some c)
    (hy : (s.line y).conn = some d) (hc : c.peer = y) (hd : d.peer = x) : s.answer x y =
      { ((s.modLine x fun l => { l.bridgedOn c (s.line y).tq.entries.length with
          answerTimer := none, idleTimer := idleTimerOf c.idleLimit }).modLine y fun l =>
            l.bridgedOn d (s.line x).tq.entries.length) with
        host := postRecord .connected (lineByte x) (lineByte y) 0x00 s.host } := by
  have hyx := hxy.symm
  rw [State.answer, State.bridge_eq hxy (c := c) (d := d) (by simpa using hx) (by simpa [State.line_modLine_other _ _ hyx] using hy) hc hd,
    State.modLine_modLine, State.line_modLine_same, State.line_modLine_other _ _ hyx]
  simp only [Line.bridgedOn_answerTimer]
  rfl

theorem orderedPart_eq (s : State) (peer : LineNo) (role : Role) : orderedPart s peer role =
    { peer := peer, role := role, origin := .ordered, escChar := s.param 3, escCount := s.param 4, guardTime := s.param 5
      monitorFlag := match role with | .caller => (s.param 6).getLsbD 0 | .called => (s.param 6).getLsbD 1
      breakAction := if (s.param 6).getLsbD 2 then .release else .forward, idleLimit := s.param 7 } := rfl

/-- Settles O32: acceptance, then the offer or the answer. -/
theorem connectOffersOrAnswers : Obligations.connect_offers_or_answers := by
  intro s x y c d h h1 hxy h2 h60 h4 h5 h6 hx hy hrx hry hready hc hd
  have hyx := hxy.symm
  have hok : connectOk s = true := (connectOk_iff s).mpr ⟨h2, h60, h4, h5, by omega⟩
  have hexec := exec_connect_of_lines h.takes h.2 h1 hxy
  rw [if_neg (by simp [hok]), if_neg (by simp [hx, hy]), if_neg (by simp [State.reserved_eq_false hrx, State.reserved_eq_false hry]),
    if_neg (by simp [hready])] at hexec
  have hcx : orderedPart s y .caller = c := by rw [orderedPart_eq, hc]
  have hdy : orderedPart s x .called = d := by rw [orderedPart_eq, hd, hc]
  have haccept : s.acceptCall x y = (s.modLine x fun l => { l with conn := some c }).modLine y fun l => { l with conn := some d } := by
    rw [State.acceptCall, hcx, hdy]
  refine ⟨fun hr => ?offered, fun hr => ?answered⟩
  case offered =>
    have hoffer : s.offerCall x y = (s.modLine x fun l =>
        { l with state := .calling, conn := some c, answerTimer := some ((s.param 2).toNat * 100 + 1) }).modLine y (fun l =>
          { l with state := .offered, conn := some d }) := by
      rw [State.offerCall, haccept, State.modLine_regroup_two s hxy, startTimer_pos (Nat.mul_pos h2 (by decide))]
      rfl
    refine ⟨_, ?_, hoffer, ?_, ?_⟩
    · rw [hexec, if_neg (by simp [hr]), State.leave_of_accepted _ .started rfl]
    · rw [State.call_of_high (by rw [hoffer]; exact h.takes.1), hoffer, State.line_modLine_same]
      exact .inl rfl
    · rw [hoffer, State.call, State.line_modLine_other _ _ hxy, State.line_modLine_same]
      simp
  case answered =>
    rw [hexec, if_pos hr, State.leave_of_accepted _ .started rfl,
      State.answer_eq (c := c) (d := d) hxy (by simp [haccept, State.line_modLine_other _ _ hxy]) (by simp [haccept])
        (by rw [hc]) (by rw [hd]), haccept]
    rw [State.modLine_regroup_two s hxy]
    simp only [State.line_modLine_same, State.line_modLine_other _ _ hxy, State.line_modLine_other _ _ hyx, Line.bridgedOn_conn]
    rfl

/-! ### Recognitions of a ready level -/

/-- A recognition that is due: the line's own change, what the Connection Table makes of it, and the evaluation of a presence. -/
theorem exec_readyRecognition {s : State} {n : LineNo} (hs : s.resetLow = false) (hd : (s.line n).readyDue ≠ .none) :
    exec (.readyRecognition n) s = .next (
      if (s.line n).rdySample then ((s.modLine n fun l => { l with ready := l.rdySample, graceCount := 0, readyDue := .none }).readyChanged
        n ((s.line n).readyDue == .first) (s.line n).rdySample).evaluateLine n
      else (s.modLine n fun l => { l with ready := l.rdySample, graceCount := 0, readyDue := .none }).readyChanged
        n ((s.line n).readyDue == .first) (s.line n).rdySample) := by
  refine (whileRunning_of_high hs (recognise n)).trans (congrArg _ ?_)
  rw [recognise, if_neg hd]
  rfl

/-- Settles O33: presence on an OFFERED line is its answer, and the BRIDGED line's evaluation establishes nothing. -/
theorem readyAnswersOfferedCall : Obligations.ready_answers_offered_call := by
  intro s x y c d hs hxy hx hy hcx hcy hc hd hdue hsample
  have hyx := hxy.symm
  rw [exec_readyRecognition hs hdue, if_pos hsample]
  congr 1
  set u := s.modLine y fun l => { l with ready := l.rdySample, graceCount := 0, readyDue := .none } with hu
  have huy : u.line y = { s.line y with ready := (s.line y).rdySample, graceCount := 0, readyDue := .none } := by
    rw [hu, State.line_modLine_same]
  have hux : u.line x = s.line x := State.line_modLine_other _ _ hxy
  have hchanged : u.readyChanged y ((s.line y).readyDue == .first) (s.line y).rdySample = u.answer x y := by
    simp [State.readyChanged, huy, hy, hsample, hcy, hd]
  rw [hchanged, State.answer_eq hxy (by rw [hux]; exact hcx) (by rw [huy]; exact hcy) hc hd, State.evaluateLine_of_not_host]
  · rw [hux, huy, hu, State.modLine_comm _ hyx, State.modLine_modLine]
    refine congrArg (fun t : State => { t with host := postRecord .connected (lineByte x) (lineByte y) 0x00 s.host }) ?_
    exact State.modLine_two_congr hxy rfl (by simp only [hsample])
  · have hline : ∀ (t : State) (p : HostPort), ({ t with host := p } : State).line y = t.line y := fun _ _ => rfl
    rw [hline, State.line_modLine_same, Line.bridgedOn_state]
    simp

/-! ### Calls that fail -/

/-- The failure of a call, as the statements put it (R86): both lines HOST, CALL_FAILED posted, and the two evaluations. -/
theorem State.failCall_evaluatedBoth (s : State) (x y : LineNo) (reason : FailReason) :
    ({ ((s.modLine x fun l => { l with state := .host, conn := none, answerTimer := none }).modLine y fun l =>
        { l with state := .host, conn := none, answerTimer := none }) with
      host := postRecord .callFailed (lineByte x) (lineByte y) (failInfo reason) s.host } : State).EvaluatedBoth
      (s.failCall x y reason) x y := by
  unfold State.failCall
  dsimp only
  split
  · exact .inr ⟨_, State.evaluateLine_evaluated _ y, State.evaluateLine_evaluated _ x⟩
  · exact .inl ⟨_, State.evaluateLine_evaluated _ x, State.evaluateLine_evaluated _ y⟩

theorem State.endCall_caller {s : State} {x : LineNo} {c : Connection} (h : (s.line x).conn = some c) (hr : c.role = .caller)
    (reason : FailReason) : s.endCall x reason = s.failCall x c.peer reason := by
  simp [State.endCall, h, callerCalled, hr]

theorem State.endCall_called {s : State} {y : LineNo} {d : Connection} (h : (s.line y).conn = some d) (hr : d.role = .called)
    (reason : FailReason) : s.endCall y reason = s.failCall d.peer y reason := by
  simp [State.endCall, h, callerCalled, hr]

/-- Settles O34: each cause ends the call. -/
theorem failedCallReturnsBothLines : Obligations.failed_call_returns_both_lines := by
  rintro s x y c d hs hxy hx hy hcx hcy hc hcr hd hdr u rfl
  refine ⟨fun ht => ?expiry, fun n hn h => ?release, fun hdue hsample => ?lost⟩
  case expiry =>
    refine ⟨s.failCall x y .noAnswer, (whileRunning_of_high hs (answerExpiry x)).trans (congrArg _ ?_),
      s.failCall_evaluatedBoth x y .noAnswer⟩
    rw [answerExpiry, if_pos ⟨hx, (timerDue_iff _).mpr ht⟩, State.endCall_caller hcx hcr, hc]
  case release =>
    refine ⟨s.failCall x y .cancelled, exec_checkLine_accepted (c := .release) h rfl ?_ rfl, s.failCall_evaluatedBoth x y .cancelled⟩
    rcases hn with rfl | rfl
    · simp only [hx, State.endCall_caller hcx hcr, hc]
    · simp only [hy, State.endCall_called hcy hdr, hd]
  case lost =>
    have hyx := hxy.symm
    rw [exec_readyRecognition hs hdue, if_neg (by simp [hsample])]
    refine ⟨_, rfl, ?_⟩
    set v := s.modLine x fun l => { l with ready := l.rdySample, graceCount := 0, readyDue := .none } with hv
    have hvx : v.line x = { s.line x with ready := (s.line x).rdySample, graceCount := 0, readyDue := .none } := by
      rw [hv, State.line_modLine_same]
    have hchanged : v.readyChanged x ((s.line x).readyDue == .first) (s.line x).rdySample = v.failCall x y .callerLost := by
      rw [← hc, ← State.endCall_caller (s := v) (by rw [hvx]; exact hcx) hcr]
      simp [State.readyChanged, hvx, hx, hsample]
    rw [hchanged]
    refine cast (congrArg (fun w : State => w.EvaluatedBoth _ x y) ?_) (v.failCall_evaluatedBoth x y .callerLost)
    refine congrArg (fun w : State => { w with host := postRecord .callFailed (lineByte x) (lineByte y) 0x02 s.host })
      (a₂ := ((s.modLine x fun l => { l with state := .host, conn := none, answerTimer := none }).modLine y fun l =>
        { l with state := .host, conn := none, answerTimer := none }).modLine x fun l =>
          { l with ready := false, graceCount := 0, readyDue := .none }) ?_
    rw [State.modLine_regroup s hxy, hv, State.modLine_modLine]
    refine State.modLine_two_congr hxy ?_ rfl
    simp only [hsample]

/-! ### A drain cut short -/

/-- What a cut drain comes to (R111, R112): the rest of the TQ discarded into the tally, then the drain check. -/
theorem State.cutDrain_eq {s : State} {n : LineNo} (hc : (s.line n).conn = none) : s.cutDrain n =
    ((s.withFree (s.freeList ++ (s.line n).tq.chain)).modLine n fun l => { l with
      drainTimer := none, tally := min 255 (l.tally + l.tq.entries.length), tq := l.tq.emptied }).tqEmptied n := by
  rw [State.cutDrain, State.discard_eq_emptied, State.setQueue_tq, State.modLine_withFree, State.modLine_modLine, State.tellHold_tq,
    State.feederSees_of_none (by simpa using hc)]
  congr 1
  rw [State.queue, State.line_modLine_same]
  exact State.modLine_congr rfl

/-- Settles O39: both causes cut the drain; the drain check goes by the transmitter. -/
theorem drainIsCut : Obligations.drain_is_cut := by
  rintro s n hs hst hc u hu
  have hcut : s.cutDrain n = u.tqEmptied n := by rw [hu]; exact State.cutDrain_eq hc
  have hexpiry : (s.line n).drainTimer = some 0 → exec (.drainTimerExpiry n) s = .next (u.tqEmptied n) := fun ht =>
    (whileRunning_of_high hs (drainExpiry n)).trans (by rw [drainExpiry, if_pos ⟨hst, (timerDue_iff _).mpr ht⟩, hcut])
  have hrelease : s.Names n → exec .release s = .next ((u.tqEmptied n).withResult .done) := fun h =>
    exec_checkLine_accepted (c := .release) h rfl (by simp only [hst, hcut]) rfl
  have hline : (u.line n).state = .draining ∧ (u.line n).tq.entries = [] ∧ (u.line n).tx = (s.line n).tx := by
    rw [hu]; simp [hst, Queue.emptied]
  obtain ⟨hud, hue, hux⟩ := hline
  refine ⟨fun ht => ?busy, fun ht => ?idle⟩
  case busy =>
    have h : u.tqEmptied n = u := by
      rw [State.tqEmptied, State.drainCheck_of_sending (.inr (by rw [hux]; exact ht)), State.evaluateLine_of_not_host (by simp [hud])]
    exact ⟨fun htimer => by rw [hexpiry htimer, h], fun hn => by rw [hrelease hn, h]⟩
  case idle =>
    have h : (u.returned n).Evaluated (u.tqEmptied n) n := by
      have hret : u.returnToHost n = (u.returned n).evaluateLine n := by
        rw [State.returnToHost, State.modLine_post, State.modLine_modLine]; rfl
      rw [State.tqEmptied, State.drainCheck_of_drained hud hue (by rw [hux]; exact ht), hret]
      exact State.evaluated_twice _ n
    exact ⟨fun htimer => ⟨_, hexpiry htimer, h⟩, fun hn => ⟨_, hrelease hn, h⟩⟩

/-! ### Received entries -/

theorem rxAfter_eq (fmt : Format) (e : Entry) : rxAfter fmt e = if e.kind = .brk then .breakWait fmt else .idle [] := by
  unfold rxAfter
  cases e.kind <;> rfl

theorem State.consumeCode_of_noCode {s : State} {x : LineNo} {e : Entry} (h : (s.line x).NoCode e) : s.consumeCode x e = none := by
  simp only [State.consumeCode]
  split
  · next hm =>
    obtain ⟨hp, hr⟩ := (h.resolve_left (not_not_intro hm.1)).resolve_left (not_not_intro hm.2)
    rw [if_neg hp, if_neg hr]
  · rfl

/-- A change of a line that leaves its queues leaves every queue. -/
theorem State.queue_modLine_of_keeps (s : State) (n : LineNo) {f : Line → Line} (hr : ∀ l, (f l).rq = l.rq)
    (ht : ∀ l, (f l).tq = l.tq) (q : QueueId) : (s.modLine n f).queue q = s.queue q := by
  cases q <;> simp only [State.queue, State.line_modLine] <;> split <;> simp_all

/-- Whether an append is accepted is a matter of the queues and the free list (R23). -/
theorem State.accepts_congr {s t : State} (hq : ∀ q, t.queue q = s.queue q) (hf : t.freeList = s.freeList) (q : QueueId) :
    t.Accepts q ↔ s.Accepts q := by
  simp only [State.Accepts, State.grantable_iff, State.unmetOthers, State.freeCount, hq, hf]

/-- An append to a line's own RQ, in one change of the line (R68, R30). -/
theorem State.routeAppend_rq {s : State} {n : LineNo} (e : Entry) (hb : (s.line n).state ≠ .bridged) :
    (s.Accepts (.rq n) → s.routeAppend n (.rq n) .ownRq e = (s.withFree ((s.line n).rq.freeAfter s.freeList)).modLine n fun l =>
      { l with overrun := false, rq := l.rq.withEntry s.freeList e }.afterOccupancy (l.rq.entries.length + 1)) ∧
    (¬ s.Accepts (.rq n) → s.routeAppend n (.rq n) .ownRq e = { (s.modLine n fun l => { l with overrun := true }) with
      host := if (s.line n).overrun then s.host else postRecord .overrun (lineByte n) 0xFF 0x00 s.host }) := by
  refine ⟨fun ha => ?_, fun ha => ?_⟩
  · obtain ⟨t, ht⟩ := State.append_of_accepts e ha
    have htn : (t.line n).state = (s.line n).state := by
      rw [State.append_eq_withEntry ht, State.setQueue_rq, State.line_modLine_same]; rfl
    rw [State.routeAppend, ht]
    dsimp only [State.tellAppended]
    rw [State.tellHold_rq (by rw [State.clearOverrun, State.line_modLine_same]; rw [← htn] at hb; exact hb), State.clearOverrun,
      State.modLine_modLine, State.append_eq_withEntry ht, State.setQueue_rq, State.modLine_modLine]
    refine State.modLine_congr ?_
    simp only [State.queue, State.line_modLine_same, State.withFree_line, Queue.withEntry_entries, List.length_append,
      List.length_singleton]
  · rw [State.routeAppend, (State.append_eq_none_iff s _ e).mpr ha]
    dsimp only [State.noteOverrun]
    cases ho : (s.line n).overrun with
    | true =>
      rw [if_pos rfl, if_pos rfl]
      exact (State.modLine_id (f := fun l => { l with overrun := true }) (by rw [← ho])).symm
    | false => rfl

/-- Settles O40: delivery to the line's own RQ. -/
theorem receivedEntryJoinsOwnQueue : Obligations.received_entry_joins_own_queue := by
  rintro s n fmt data parity stop e hs hrx rfl hst hno r rfl
  rw [exec_frameComplete hs hrx, rxAfter_eq]
  set e := classify fmt data parity stop
  set r : RxState := if e.kind = .brk then .breakWait fmt else .idle []
  set u := s.modLine n fun l => { l with rx := r } with hu
  have hun : u.line n = { s.line n with rx := r } := by rw [hu, State.line_modLine_same]
  have haccepts : u.Accepts (.rq n) ↔ s.Accepts (.rq n) :=
    State.accepts_congr (fun q => s.queue_modLine_of_keeps n (f := fun l => { l with rx := r }) (fun _ => rfl) (fun _ => rfl) q) rfl _
  have hroute : u.deliver n e = u.routeAppend n (.rq n) .ownRq e := by
    rw [State.deliver, State.consumeCode_of_noCode (by rw [hun]; exact hno)]
    rcases hst with h | h | h | h <;> simp [State.route, hun, h]
  obtain ⟨hin, hout⟩ := State.routeAppend_rq (s := u) (n := n) e (by rw [hun]; rcases hst with h | h | h | h <;> simp [h])
  refine ⟨fun ha => ?_, fun ha => ?_⟩
  · rw [hroute, hin (haccepts.mpr ha), hun, hu, State.modLine_withFree, State.modLine_modLine]
    rfl
  · rw [hroute, hout (mt haccepts.mp ha), hun, hu, State.modLine_modLine]
    rfl

/-! ### Frames -/

/-- The parity of the marks: the fold of R4 against the count. -/
theorem oddMarks_eq (bits : List Bool) : oddMarks bits = decide (bits.count true % 2 = 1) := by
  have h : ∀ (bits : List Bool) (b : Bool), bits.foldl xor b = (b ^^ decide (bits.count true % 2 = 1)) := by
    intro bits
    induction bits with
    | nil => simp
    | cons a bits ih =>
      intro b
      rw [List.foldl_cons, ih, List.count_cons]
      cases a
      · simp
      · rcases Nat.mod_two_eq_zero_or_one (bits.count true) with hm | hm <;> cases b <;> simp [Nat.add_mod, hm]
  rw [oddMarks, h, Bool.false_xor]

theorem frameDataBits_eq (d : DataBits) (v : Byte) :
    frameDataBits d v = (List.range (if d = .seven then 7 else 8)).map fun i => v.getLsbD i := by
  cases d <;> rfl

theorem carried_eq (d : DataBits) (v : Byte) : carried d v = if d = .seven then v &&& 0x7F else v := by
  cases d <;> rfl

theorem stopCount_eq (t : StopBits) : stopCount t = if t = .one then 1 else 2 := by
  cases t <;> rfl

theorem parityBit_toList (p : Parity) (bits : List Bool) : (p = .none ↔ (parityBit p bits).toList = []) ∧
    (parityBit p bits).toList.length ≤ 1 ∧ (p = .even → (bits ++ (parityBit p bits).toList).count true % 2 = 0) ∧
    (p = .odd → (bits ++ (parityBit p bits).toList).count true % 2 = 1) := by
  have hcount : ∀ b : Bool, (bits ++ [b]).count true = bits.count true + if b then 1 else 0 := by
    intro b; cases b <;> simp
  cases p with
  | none => simp [parityBit]
  | even =>
    simp only [parityBit, Option.toList_some, hcount, oddMarks_eq]
    rcases Nat.mod_two_eq_zero_or_one (bits.count true) with hm | hm <;> simp [Nat.add_mod, hm]
  | odd =>
    simp only [parityBit, Option.toList_some, hcount, oddMarks_eq]
    rcases Nat.mod_two_eq_zero_or_one (bits.count true) with hm | hm <;> simp [Nat.add_mod, hm]

theorem frameBits_length (fmt : Format) (v : Byte) : (frameBits fmt v).length = characterBits fmt := by
  obtain ⟨d, p, t, r⟩ := fmt
  cases d <;> cases p <;> cases t <;> rfl

/-- Settles O41: the frame by its parts, and the classification by the stop bit, the data bits and the parity bit. -/
theorem framesSentAndClassified : Obligations.frames_sent_and_classified := by
  refine ⟨fun fmt v => ?sent, fun fmt v => ?classified⟩
  case sent =>
    obtain ⟨hnone, hlen, heven, hodd⟩ := parityBit_toList fmt.parity (frameDataBits fmt.dataBits v)
    refine ⟨_, ?_, hnone, hlen, ?_, ?_, frameBits_length fmt v⟩
    · rw [frameBits, ← frameDataBits_eq, stopCount_eq]
    · rw [← frameDataBits_eq]; exact heven
    · rw [← frameDataBits_eq]; exact hodd
  case classified =>
    rw [← carried_eq]
    refine ⟨fun p hv hp => ?_, fun p hv => ?_, fun p hp => ?_, fun p hp => ?_⟩
    · have hbreak : frameIsBreak fmt v p false = true := by
        rcases hp with hp | hp <;> simp [frameIsBreak, hv, hp]
      rw [classify, if_pos hbreak]
    · have hbreak : frameIsBreak fmt v p false = false := by
        rcases hv with hv | ⟨hn, hp⟩
        · simp only [frameIsBreak, beq_eq_false_iff_ne.mpr hv, Bool.and_false, Bool.false_and]
        · simp [frameIsBreak, hn, hp]
      have hfault : frameIsFaulty fmt v p false = true := by simp [frameIsFaulty]
      rw [classify, hbreak, if_neg Bool.false_ne_true, if_pos hfault]
    · have hfault : frameIsFaulty fmt v p true = false := by
        rcases hp with hp | hp
        · simp [frameIsFaulty, hp]
        · simp [frameIsFaulty, hp, parityBit]
      rw [classify, hfault]
      rfl
    · have hfault : frameIsFaulty fmt v p true = true := by simp [frameIsFaulty, hp]
      rw [classify, hfault]
      rfl

/-! ### Entries on a BRIDGED line -/

theorem guardTimer_eq (c : Connection) : guardTimer c = if c.guardTime = 0 then none else some (c.guardTime.toNat + 1) := by
  simp [guardTimer, startTimer, ← BitVec.toNat_inj]

/-- The receiver's change and the restart of the idle timer are what the statements call heard (R6, R66, R99). -/
theorem State.restartIdle_eq_heard (s : State) (x : LineNo) (c : Connection) (fmt : Format) (e : Entry) :
    (s.modLine x fun l => { l with rx := rxAfter fmt e }).restartIdle x c = s.heard x c fmt e := by
  rw [State.restartIdle, State.heard, idleTimer_eq, rxAfter_eq, callerCalled]
  cases c.role <;> rfl

section
variable (s : State) (x m : LineNo) (c : Connection) (fmt : Format) (e : Entry)

/-- What a complete frame changes of the lines: a receiver and an idle timer. -/
theorem State.heard_line : ∃ r t, (s.heard x c fmt e).line m = { s.line m with rx := r, idleTimer := t } := by
  have hrx : ∃ r, (s.modLine x fun l => { l with rx := if e.kind = .brk then .breakWait fmt else .idle [] }).line m =
      { s.line m with rx := r } := by
    rw [State.line_modLine]
    split
    · next h => subst h; exact ⟨_, rfl⟩
    · exact ⟨(s.line m).rx, rfl⟩
  obtain ⟨r, hr⟩ := hrx
  rw [State.heard]
  generalize (if c.role = .caller then x else c.peer) = k
  by_cases h : m = k
  · subst h
    rw [State.line_modLine_same, hr]
    exact ⟨r, _, rfl⟩
  · rw [State.line_modLine_other _ _ h, hr]
    exact ⟨r, (s.line m).idleTimer, rfl⟩
end

/-- Delivery on a BRIDGED line: routed to its monitor, behind the idle timer's restart (R8, R66). -/
theorem exec_frameComplete_bridged {s : State} {x y : LineNo} {c : Connection} {fmt : Format} (hs : s.resetLow = false)
    (hb : s.Bridged x y c) (hrx : (s.line x).rx = .frame fmt) {data : Byte} {parity stop : Bool} {e : Entry}
    (he : classify fmt data parity stop = e) (hno : (s.line x).NoCode e) :
    exec (.frameComplete x data parity stop) s = .next ((s.heard x c fmt e).monitorTake x c e) := by
  obtain ⟨-, hst, -, hc, -, -⟩ := hb
  rw [exec_frameComplete hs hrx, he, State.deliver, State.consumeCode_of_noCode (by rw [State.line_modLine_same]; exact hno)]
  simp only [State.route, State.line_modLine_same, hst, hc, State.restartIdle_eq_heard]

/-- Settles O44: the monitor holds the escape character. -/
theorem escapeCharactersAreHeld : Obligations.escape_characters_are_held := by
  refine ⟨fun s n hs hst ht => ?settled, fun s x y c fmt data parity e hs hb hrx he hcl hno hst hk => ?held⟩
  case settled =>
    refine (whileRunning_of_high hs (silenceExpiry n)).trans ?_
    rw [silenceExpiry, if_pos ((timerDue_iff _).mpr ht)]
    simp only [hst]
  case held =>
    rw [exec_frameComplete_bridged hs hb hrx hcl hno]
    obtain ⟨r, t, hline⟩ := s.heard_line x x c fmt e
    have hesc : isEscape c e = true := by simp [isEscape, he]
    have htake : (s.heard x c fmt e).monitorTake x c e = (s.heard x c fmt e).holdEscape x c e := by
      rcases hst with h | h <;> simp [State.monitorTake, hline, h, hesc]
    have hgo : ¬ ((s.line x).monitor.count + 1 = c.escCount.toNat ∧ c.guardTime = 0) := by
      rcases hk with h | h
      · exact fun hall => by omega
      · exact fun hall => h.2 hall.2
    rw [htake, State.holdEscape]
    simp only [hline, if_neg hgo, guardTimer_eq]
    exact congrArg _ (State.modLine_congr (by simp only [hline]))

/-! ### The Standing List's arming -/

theorem State.setRecord_setRecord (s : State) (i : SlotNo) (r q : StandingRecord) :
    (s.setRecord i r).setRecord i q = s.setRecord i q := by
  simp [State.setRecord]

/-- Settles O47: the record armed and evaluated at once. -/
theorem standingArmArmsOrEstablishes : Obligations.standing_arm_arms_or_establishes := by
  intro s i c h hi
  refine ⟨fun hfree => ⟨fun hno => ?armed, fun hab hc p hp => ?made⟩, fun hres => ?refused⟩
  case refused =>
    refine exec_checkSlot_refused (c := .standingArm) (r := .reservedLine) h rfl ?_ rfl
    obtain ⟨j, hj, hjr⟩ := hres
    simp only [hi]
    refine if_pos ?_
    rw [Bool.or_eq_true, State.reservedElsewhere_iff, State.reservedElsewhere_iff]
    exact hjr.imp (fun hr => ⟨j, hj, hr⟩) fun hr => ⟨j, hj, hr⟩
  all_goals
    have hfree' : ¬ (s.reservedElsewhere i c.lineA || s.reservedElsewhere i c.lineB) = true := by
      rw [Bool.or_eq_true, State.reservedElsewhere_iff, State.reservedElsewhere_iff]
      rintro (⟨j, hj, hr⟩ | ⟨j, hj, hr⟩) <;> simp [hfree j hj] at hr
  case armed =>
    refine exec_checkSlot_accepted (c := .standingArm) h rfl ?_ rfl
    simp only [hi, if_neg hfree']
    have hnot : (s.setRecord i (.armed c)).establishable c = false := by
      rw [Bool.eq_false_iff, ne_eq, State.establishable_iff]
      obtain ⟨n, hn, hbad⟩ := hno
      intro hall
      obtain ⟨h1, h2, h3⟩ := hall n hn
      simp only [State.setRecord_line] at h1 h2 h3
      simp [h1, h2, h3] at hbad
    simp [State.evaluateSlot, hnot]
  case made =>
    refine exec_checkSlot_accepted (c := .standingArm) h rfl ?_ rfl
    simp only [hi, if_neg hfree']
    have hcond : (s.setRecord i (.armed c)).Conditions c := fun n hn => by simpa using hc n hn
    have hev : (s.setRecord i (.armed c)).evaluateSlot i = (s.setRecord i (.armed c)).withConnection i c := by
      rw [State.evaluateSlot, State.record_setRecord_same]
      dsimp only
      rw [if_pos ((State.establishable_iff _ c).mpr hcond), State.establish_eq hab hcond]
    have hmod : ∀ (n : LineNo) (f : Line → Line) (t : State), (t.setRecord i (.armed c)).modLine n f = (t.modLine n f).setRecord i (.armed c) :=
      fun _ _ _ => rfl
    rw [hev, State.withConnection]
    simp only [hmod, State.setRecord_setRecord, hp]
    rfl

/-! ### Ticks -/

theorem tickAll_line (levels : Byte) (s : State) (n : LineNo) :
    (tickAll levels s).line n = (s.line n).tick.sampleReady s.firstTick (levels.getLsbD n.val) :=
  State.line_forLines_modLine (fun n l => l.tick.sampleReady s.firstTick (levels.getLsbD n.val)) s n

theorem Line.sampleReady_same {l : Line} {raw : Bool} (h : raw = l.ready) (first : Bool) :
    l.sampleReady first raw = { l with rdySample := raw, graceCount := 0, readyDue := .none } := if_pos h

theorem Line.sampleReady_first {l : Line} {raw : Bool} (h : raw ≠ l.ready) :
    l.sampleReady true raw = { l with rdySample := raw, graceCount := 0, readyDue := .first } := if_neg h

theorem Line.sampleReady_counted {l : Line} {raw : Bool} (h : raw ≠ l.ready) : l.sampleReady false raw =
    { l with rdySample := raw, graceCount := l.graceCount + 1
             readyDue := if l.settings.readyGrace.toNat + 1 ≤ l.graceCount + 1 then .counted else .none } := if_neg h

/-- Settles O59: the tick of each line, and the three cases of its sample. -/
theorem tickCountsAndSamples : Obligations.tick_counts_and_samples := by
  intro s levels hs f hf0 hf
  obtain rfl : f = tickTimer := funext fun t => by cases t <;> simp [hf0, hf, tickTimer]
  refine ⟨tickAll levels s, whileRunning_of_high hs _, fun n => ?_, rfl, rfl, rfl, rfl, rfl, rfl, rfl, hs, rfl⟩
  rw [tickAll_line]
  by_cases hraw : levels.getLsbD n.val = (s.line n).ready
  · rw [Line.sampleReady_same (l := (s.line n).tick) hraw]
    exact ⟨_, _, rfl, fun _ => ⟨rfl, rfl⟩, fun h => absurd hraw h⟩
  · cases hfirst : s.firstTick with
    | true =>
      rw [Line.sampleReady_first (l := (s.line n).tick) hraw]
      exact ⟨_, _, rfl, fun h => absurd h hraw, fun _ => ⟨fun _ => ⟨rfl, rfl⟩, fun h => nomatch h⟩⟩
    | false =>
      rw [Line.sampleReady_counted (l := (s.line n).tick) hraw]
      have hdue : ∀ p : Prop, ∀ _ : Decidable p, ((if p then ReadyDue.counted else .none) = .counted ↔ p) ∧
          (if p then ReadyDue.counted else .none) ≠ .first := fun p _ => by by_cases hp : p <;> simp [hp]
      exact ⟨_, _, rfl, fun h => absurd h hraw, fun _ => ⟨fun h => (nomatch h), fun _ => ⟨rfl, hdue _ _⟩⟩⟩

/-- Settles O60: the recognition on a line without a call or connection, and of a level that it has already. -/
theorem readyChangeIsReported : Obligations.ready_change_is_reported := by
  rintro s n hs hdue u hu
  rw [exec_readyRecognition hs hdue, ← hu]
  have hun : u.line n = { s.line n with ready := (s.line n).rdySample, graceCount := 0, readyDue := .none } := by
    rw [hu, State.line_modLine_same]
  have evaluated : ∀ v : State, v.line n = u.line n → ∃ t, Host.Outcome.next (if (s.line n).rdySample then v.evaluateLine n else v) =
      (Host.Outcome.next t : Host.Outcome State Fault Refusal) ∧ v.Evaluated t n := by
    intro v hv
    refine ⟨_, rfl, ?_⟩
    split
    · exact State.evaluateLine_evaluated v n
    · next h => exact .refl_of fun _ _ => by rw [hv, hun]; simpa using h
  refine ⟨fun hh hc => ?counted, fun hh hf => ?first, fun hst => ?other⟩
  case counted =>
    have hch : u.readyChanged n ((s.line n).readyDue == .first) (s.line n).rdySample =
        { u with host := postRecord .readyChange (lineByte n) 0xFF (if (s.line n).rdySample then 0x01 else 0x00) s.host } := by
      have huh : u.host = s.host := by rw [hu]; rfl
      simp only [State.readyChanged, hun, hh, hc, ← huh]
      rfl
    rw [hch]
    exact evaluated _ rfl
  case first =>
    have hch : u.readyChanged n ((s.line n).readyDue == .first) (s.line n).rdySample = u := by
      simp [State.readyChanged, hun, hh, hf]
    rw [hch]
    exact evaluated _ rfl
  case other =>
    have hch : u.readyChanged n ((s.line n).readyDue == .first) (s.line n).rdySample = u := by
      rcases hst with h | h | ⟨hl, h⟩ | ⟨hl, h | h⟩ <;> simp [State.readyChanged, hun, h] <;> simp [hl]
    have hnh : (u.line n).state ≠ .host := by
      rw [hun]; rcases hst with h | h | ⟨-, h⟩ | ⟨-, h | h⟩ <;> simp [h]
    rw [hch, State.evaluateLine_of_not_host hnh, ite_self]

end Sys2Proof.Machine

/-! PROOF. Bridged traffic and releases (O36 to O38, O43, O45): entries passed on, holding lists handed over and the release step, each
in the terms of the statements, and each cause by these. -/

namespace Sys2Proof.Machine

set_option Elab.async false

/-! ### Changes of a line that traffic does not look at -/

/-- A change of a line that the Queue Store, the Hold Logic and the transmitter neither look at nor undo. -/
structure Line.Unseen (f : Line → Line) : Prop where
  state : ∀ l, (f l).state = l.state
  conn : ∀ l, (f l).conn = l.conn
  settings : ∀ l, (f l).settings = l.settings
  hold : ∀ l, (f l).hold = l.hold
  hldi : ∀ l, (f l).hldi = l.hldi
  receivedPause : ∀ l, (f l).receivedPause = l.receivedPause
  rq : ∀ l, (f l).rq = l.rq
  tq : ∀ l, (f l).tq = l.tq
  tx : ∀ l, (f l).tx = l.tx
  breakTimer : ∀ l, (f l).breakTimer = l.breakTimer
  inputHeld : ∀ l, (f l).inputHeld = l.inputHeld
  announced : ∀ l, (f l).announced = l.announced
  writes : ∀ l q t b i a, f { l with tq := q, tx := t, breakTimer := b, inputHeld := i, announced := a } =
    { f l with tq := q, tx := t, breakTimer := b, inputHeld := i, announced := a }

theorem unseen_clearOverrun : Line.Unseen fun l => { l with overrun := false } :=
  ⟨fun _ => rfl, fun _ => rfl, fun _ => rfl, fun _ => rfl, fun _ => rfl, fun _ => rfl, fun _ => rfl, fun _ => rfl, fun _ => rfl,
    fun _ => rfl, fun _ => rfl, fun _ => rfl, fun _ _ _ _ _ _ => rfl⟩

/-- A line without what a release overwrites and no hand-over looks at: the idle timer, and all of the monitor but its list. -/
def Line.unwatched (l : Line) : Line :=
  { l with idleTimer := none, monitor := { state := .off, count := 0, silence := none, holding := l.monitor.holding } }

theorem unseen_unwatched : Line.Unseen Line.unwatched :=
  ⟨fun _ => rfl, fun _ => rfl, fun _ => rfl, fun _ => rfl, fun _ => rfl, fun _ => rfl, fun _ => rfl, fun _ => rfl, fun _ => rfl,
    fun _ => rfl, fun _ => rfl, fun _ => rfl, fun _ _ _ _ _ _ => rfl⟩

/-- Two changes of lines commute when they do on one line. -/
theorem State.modLine_comm_of (s : State) {f g : Line → Line} (h : ∀ l, g (f l) = f (g l)) (n m : LineNo) :
    (s.modLine n f).modLine m g = (s.modLine m g).modLine n f := by
  by_cases hnm : n = m
  · subst hnm
    rw [State.modLine_modLine, State.modLine_modLine]
    exact State.modLine_congr (h _)
  · exact State.modLine_comm s hnm f g

/-- What a change of a line leaves of it, it leaves of every line. -/
theorem State.modLine_reads {α : Type} {f : Line → Line} (s : State) (g : Line → α) (h : ∀ l, g (f l) = g l) (n m : LineNo) :
    g ((s.modLine n f).line m) = g (s.line m) := by
  rw [State.line_modLine]
  split
  · next hm => rw [h, hm]
  · rfl

section
variable {f : Line → Line} (h : Line.Unseen f)
include h

theorem Line.Unseen.heldAt (l : Line) (k : Nat) : (f l).heldAt k = l.heldAt k := by
  simp only [Line.heldAt, h.hold, h.inputHeld]

theorem Line.Unseen.afterOccupancy (l : Line) (k : Nat) : (f l).afterOccupancy k = f (l.afterOccupancy k) := by
  simp only [Line.afterOccupancy, h.heldAt, h.tx, h.hold, h.announced, h.settings]
  split
  · exact .trans (by simp only [h.tq, h.breakTimer, h.hold, h.settings]) (h.writes l _ _ _ _ _).symm
  · exact .trans (by simp only [h.tq, h.breakTimer, h.hold, h.settings]) (h.writes l _ _ _ _ _).symm

theorem Line.Unseen.begins (l : Line) (q : Queue) (e : Entry) :
    ({ f l with tq := q } : Line).begins e = f ({ l with tq := q }.begins e) := by
  simp only [Line.begins, h.settings]
  split
  · exact .trans (by simp only [h.inputHeld, h.announced, h.settings]) (h.writes l _ _ _ _ _).symm
  · exact .trans (by simp only [h.inputHeld, h.announced, h.breakTimer, h.settings]) (h.writes l _ _ _ _ _).symm

theorem Line.Unseen.write_tq (l : Line) (q : Queue) : ({ f l with tq := q } : Line) = f { l with tq := q } :=
  .trans (by simp only [h.inputHeld, h.announced, h.breakTimer, h.tx]) (h.writes l _ _ _ _ _).symm

theorem Line.Unseen.write_code (l : Line) (t : TxState) (a : Announced) :
    ({ f l with tx := t, announced := a } : Line) = f { l with tx := t, announced := a } :=
  .trans (by simp only [h.inputHeld, h.breakTimer, h.tq]) (h.writes l _ _ _ _ _).symm

theorem Line.Unseen.feederSees (s : State) (z n : LineNo) : (s.modLine z f).feederSees n = (s.feederSees n).modLine z f := by
  simp only [State.feederSees, s.modLine_reads Line.conn h.conn, s.modLine_reads Line.state h.state, s.modLine_reads Line.tq h.tq]
  split
  · rfl
  · split
    · exact State.modLine_comm_of s (fun l => h.afterOccupancy l _) _ _
    · rfl

theorem Line.Unseen.stored (s : State) (z n : LineNo) (e : Entry) : (s.modLine z f).stored n e = (s.stored n e).modLine z f := by
  have hcomm : ∀ t : State, (t.modLine z f).modLine n (fun l => { l with tq := l.tq.withEntry s.freeList e }) =
      (t.modLine n fun l => { l with tq := l.tq.withEntry s.freeList e }).modLine z f := fun t =>
    t.modLine_comm_of (fun l => by rw [h.tq]; exact h.write_tq l _) z n
  rw [State.stored, State.stored, ← h.feederSees, s.modLine_reads Line.tq h.tq, State.modLine_freeList, State.modLine_withFree, hcomm]

theorem Line.Unseen.begun (s : State) (z n : LineNo) (e : Entry) : (s.modLine z f).begun n e = (s.begun n e).modLine z f := by
  have hcomm : ∀ t : State, (t.modLine z f).modLine n (fun l => { l with tq := l.tq.withoutOldest }.begins e) =
      (t.modLine n fun l => { l with tq := l.tq.withoutOldest }.begins e).modLine z f := fun t =>
    t.modLine_comm_of (fun l => by rw [h.tq]; exact h.begins l _ e) z n
  rw [State.begun, State.begun, ← h.feederSees, s.modLine_reads Line.tq h.tq, State.modLine_freeList, State.modLine_withFree, hcomm]

theorem Line.Unseen.mayBegin (s : State) (z n : LineNo) : (s.modLine z f).mayBegin n = (s.mayBegin n).modLine z f := by
  have hpending : ∀ l, (f l).codePending = l.codePending := fun l => by
    simp only [Line.codePending, h.hold, h.inputHeld, h.announced]
  have hheld : ∀ l, (f l).outputHeld = l.outputHeld := fun l => by
    simp only [Line.outputHeld, h.hold, h.hldi, h.receivedPause]
  simp only [State.mayBegin, s.modLine_reads Line.tx h.tx, s.modLine_reads Line.codePending hpending,
    s.modLine_reads Line.outputHeld hheld, s.modLine_reads Line.tq h.tq]
  split
  · rfl
  · split
    · refine State.modLine_comm_of s (fun l => ?_) z n
      exact .trans (by simp only [h.hold, h.inputHeld, h.settings]) (h.write_code l _ _)
    · split
      · rfl
      · split
        · rfl
        · exact h.begun s z n _

theorem Line.Unseen.accepts (s : State) (z : LineNo) (q : QueueId) : (s.modLine z f).Accepts q ↔ s.Accepts q :=
  State.accepts_congr (fun q => s.queue_modLine_of_keeps z h.rq h.tq q) rfl q

theorem Line.Unseen.foldl_stored (s : State) (z n : LineNo) (es : List Entry) :
    es.foldl (fun v e => v.stored n e) (s.modLine z f) = (es.foldl (fun v e => v.stored n e) s).modLine z f := by
  induction es generalizing s with
  | nil => rfl
  | cons e es ih => rw [List.foldl_cons, List.foldl_cons, h.stored, ih]
end

/-! ### The entries of a batch that are accepted -/

theorem State.acceptedOf_of_accepts {s : State} {y : LineNo} (e : Entry) (es : List Entry) (h : s.Accepts (.tq y)) :
    State.acceptedOf y (e :: es) s = e :: State.acceptedOf y es (s.stored y e) := if_pos h

theorem State.acceptedOf_of_refused {s : State} {y : LineNo} (e : Entry) (es : List Entry) (h : ¬ s.Accepts (.tq y)) :
    State.acceptedOf y (e :: es) s = [] := if_neg h

theorem Line.Unseen.acceptedOf {f : Line → Line} (h : Line.Unseen f) (s : State) (z y : LineNo) (es : List Entry) :
    State.acceptedOf y es (s.modLine z f) = State.acceptedOf y es s := by
  induction es generalizing s with
  | nil => rfl
  | cons e es ih =>
    by_cases ha : s.Accepts (.tq y)
    · rw [State.acceptedOf_of_accepts _ _ ha, State.acceptedOf_of_accepts _ _ ((h.accepts s z _).mpr ha), h.stored, ih]
    · rw [State.acceptedOf_of_refused _ _ ha, State.acceptedOf_of_refused _ _ (mt (h.accepts s z _).mp ha)]

theorem State.acceptedOf_length_le (y : LineNo) (es : List Entry) (s : State) : (State.acceptedOf y es s).length ≤ es.length := by
  induction es generalizing s with
  | nil => exact Nat.le_refl _
  | cons e es ih =>
    by_cases ha : s.Accepts (.tq y)
    · rw [State.acceptedOf_of_accepts _ _ ha]; exact Nat.succ_le_succ (ih _)
    · rw [State.acceptedOf_of_refused _ _ ha]; exact Nat.zero_le _

/-- The model's batch append counts what it refuses, and stores what it accepts (R25). -/
theorem State.appendBatch_eq (y : LineNo) (es : List Entry) (s : State) : s.appendBatch (.tq y) es =
    (es.length - (State.acceptedOf y es s).length, (State.acceptedOf y es s).foldl (fun v e => v.stored y e) s) := by
  induction es generalizing s with
  | nil => rfl
  | cons e es ih =>
    by_cases ha : s.Accepts (.tq y)
    · obtain ⟨t, ht⟩ := State.append_of_accepts e ha
      rw [State.acceptedOf_of_accepts _ _ ha, State.appendBatch, ht]
      dsimp only
      rw [State.append_tellHold_eq_stored ht, ih]
      simp
    · rw [State.acceptedOf_of_refused _ _ ha, State.appendBatch, (State.append_eq_none_iff s _ e).mpr ha]
      rfl

/-! ### What traffic leaves of a line's connection and monitor -/

/-- A line's state, connection and monitor. -/
def Line.bearing (l : Line) : LineState × Option Connection × Monitor := (l.state, l.conn, l.monitor)

theorem Line.bearing_eq_iff {l m : Line} :
    l.bearing = m.bearing ↔ l.state = m.state ∧ l.conn = m.conn ∧ l.monitor = m.monitor := by
  simp [Line.bearing]

section
variable (s : State) (n m : LineNo)

theorem State.stored_line_bearing (e : Entry) : ((s.stored n e).line m).bearing = (s.line m).bearing := by simp [Line.bearing]

theorem State.mayBegin_line_bearing : ((s.mayBegin n).line m).bearing = (s.line m).bearing := by
  unfold State.mayBegin
  split
  · rfl
  · split
    · exact s.modLine_reads Line.bearing (by intro; rfl) n m
    · split
      · rfl
      · split
        · rfl
        · simp [Line.bearing]

theorem State.overrunOf_line_bearing (p : Byte) : ((s.overrunOf n p).line m).bearing = (s.line m).bearing := by
  unfold State.overrunOf
  split
  · rfl
  · exact s.modLine_reads Line.bearing (f := fun l => { l with overrun := true }) (fun _ => rfl) n m

theorem State.foldl_stored_line_bearing (es : List Entry) :
    ((es.foldl (fun v e => v.stored n e) s).line m).bearing = (s.line m).bearing :=
  List.foldlRecOn (motive := fun t : State => (t.line m).bearing = (s.line m).bearing) es _ rfl
    fun t ht e _ => (t.stored_line_bearing n m e).trans ht
end

theorem State.handedOver_line_bearing (s : State) (x y m : LineNo) : ((s.handedOver x y).line m).bearing =
    ((s.modLine x fun l => { l with monitor := { l.monitor with holding := [], count := 0 } }).line m).bearing := by
  unfold State.handedOver
  dsimp only
  generalize s.modLine x (fun l => { l with monitor := { l.monitor with holding := [], count := 0 } }) = t
  generalize State.acceptedOf y (s.line x).monitor.holding t = accepted
  have hstart : ((if accepted = [] then t else t.modLine x fun l => { l with overrun := false }).line m).bearing =
      (t.line m).bearing := by
    split
    · rfl
    · exact t.modLine_reads Line.bearing (by intro; rfl) x m
  have hstored := (State.foldl_stored_line_bearing _ y m accepted).trans hstart
  generalize accepted.foldl (fun v e => v.stored y e) (if accepted = [] then t else t.modLine x fun l => { l with overrun := false }) = u
    at hstored ⊢
  have hbegun : ((if accepted ≠ [] ∧ (s.line y).tq.entries = [] then u.mayBegin y else u).line m).bearing = (t.line m).bearing := by
    split
    · exact (u.mayBegin_line_bearing y m).trans hstored
    · exact hstored
  split
  · exact (State.overrunOf_line_bearing _ x m _).trans hbegun
  · exact hbegun

/-- A hand-over leaves the lines BRIDGED. -/
theorem State.Bridged.handedOver {s : State} {x y : LineNo} {c : Connection} (h : s.Bridged x y c) (a b : LineNo) :
    (s.handedOver a b).Bridged x y c := by
  obtain ⟨hxy, hx, hy, hc, hp, hd⟩ := h
  have hkeeps : ∀ m, ((s.handedOver a b).line m).state = (s.line m).state ∧ ((s.handedOver a b).line m).conn = (s.line m).conn := by
    intro m
    obtain ⟨hs, hk, -⟩ := Line.bearing_eq_iff.mp (s.handedOver_line_bearing a b m)
    exact ⟨hs.trans (s.modLine_reads Line.state (by intro; rfl) a m), hk.trans (s.modLine_reads Line.conn (by intro; rfl) a m)⟩
  exact ⟨hxy, (hkeeps x).1.trans hx, (hkeeps y).1.trans hy, (hkeeps x).2.trans hc, hp, by rw [(hkeeps y).2]; exact hd⟩

/-! ### Entries passed on and lists handed over -/

/-- The transmitter of a BRIDGED line begins, and no evaluation follows (R9, R140). -/
theorem State.kickTx_of_bridged {s : State} {n : LineNo} (h : (s.line n).state = .bridged) : s.kickTx n = s.mayBegin n := by
  have hb : ((s.mayBegin n).line n).state = .bridged := (Line.bearing_eq_iff.mp (s.mayBegin_line_bearing n n)).1.trans h
  rw [State.kickTx_eq, State.tqEmptied, State.drainCheck_of_ne (by simp [hb]), State.evaluateLine_of_not_host (by simp [hb]), ite_self]

theorem State.noteOverrun_eq_overrunOf (s : State) (x : LineNo) : s.noteOverrun x .peerTq = s.overrunOf x 0x01 := rfl

theorem State.passedOn_of_accepts {s : State} {y : LineNo} (h : s.Accepts (.tq y)) (x : LineNo) (e : Entry) : s.passedOn x y e =
    if (s.line y).tq.entries = [] then ((s.modLine x fun l => { l with overrun := false }).stored y e).mayBegin y
    else (s.modLine x fun l => { l with overrun := false }).stored y e := if_pos h

theorem State.passedOn_of_refused {s : State} {y : LineNo} (h : ¬ s.Accepts (.tq y)) (x : LineNo) (e : Entry) :
    s.passedOn x y e = s.overrunOf x 0x01 := if_neg h

/-- An append that routing makes for a line to its peer's TQ is what the statements call passed on (R66 to R68). -/
theorem State.routeAppend_eq_passedOn {s : State} {x y : LineNo} (hy : (s.line y).state = .bridged) (e : Entry) :
    s.routeAppend x (.tq y) .peerTq e = s.passedOn x y e := by
  by_cases ha : s.Accepts (.tq y)
  · obtain ⟨t, ht⟩ := State.append_of_accepts e ha
    have hstored : (t.clearOverrun x).tellHold (.tq y) = (s.modLine x fun l => { l with overrun := false }).stored y e := by
      rw [unseen_clearOverrun.stored, ← State.append_tellHold_eq_stored ht, State.tellHold_tq, State.tellHold_tq]
      exact unseen_clearOverrun.feederSees t x y
    have hb : (((s.modLine x fun l => { l with overrun := false }).stored y e).line y).state = .bridged := by
      rw [State.stored_line_state]
      exact (s.modLine_reads Line.state (by intro; rfl) x y).trans hy
    rw [State.routeAppend, ht, State.passedOn_of_accepts ha]
    dsimp only [State.tellAppended]
    rw [hstored, State.kickTx_of_bridged hb]
    simp only [List.isEmpty_iff, State.queue]
  · rw [State.routeAppend, (State.append_eq_none_iff s _ e).mpr ha, State.passedOn_of_refused ha]
    exact State.noteOverrun_eq_overrunOf s x

/-- A holding list handed over to the TQ of a BRIDGED line, as the statements put it (R25, R69, R127). -/
theorem State.handOver_eq_handedOver {s : State} {x y : LineNo} (hy : (s.line y).state = .bridged) :
    s.handOver x y = s.handedOver x y := by
  unfold State.handOver State.handedOver
  dsimp only
  rw [State.appendBatch_eq]
  set batch := (s.line x).monitor.holding
  set t := s.modLine x fun l => { l with monitor := { l.monitor with holding := [], count := 0 } } with ht
  set accepted := State.acceptedOf y batch t with hacc
  have hle : accepted.length ≤ batch.length := State.acceptedOf_length_le y batch t
  have hsome : batch.length - accepted.length < batch.length ↔ accepted ≠ [] := by
    rw [ne_eq, ← List.length_eq_zero_iff]; omega
  have hrest : 0 < batch.length - accepted.length ↔ accepted.length < batch.length := by omega
  have hcleared : (if accepted ≠ [] then (accepted.foldl (fun v e => v.stored y e) t).clearOverrun x else
      accepted.foldl (fun v e => v.stored y e) t) =
      accepted.foldl (fun v e => v.stored y e) (if accepted = [] then t else t.modLine x fun l => { l with overrun := false }) := by
    by_cases h : accepted = []
    · simp [h]
    · rw [if_pos h, if_neg h, unseen_clearOverrun.foldl_stored]; rfl
  have hb : ∀ u : State, u = accepted.foldl (fun v e => v.stored y e) (if accepted = [] then t else t.modLine x fun l =>
      { l with overrun := false }) → (u.line y).state = .bridged := by
    rintro u rfl
    refine ((Line.bearing_eq_iff.mp (State.foldl_stored_line_bearing _ y y accepted)).1).trans ?_
    have htb : (t.line y).state = .bridged := (s.modLine_reads Line.state (by intro; rfl) x y).trans hy
    split
    · exact htb
    · exact (t.modLine_reads Line.state (by intro; rfl) x y).trans htb
  simp only [hsome, hrest, hcleared, List.isEmpty_iff, State.kickTx_of_bridged (hb _ rfl), State.noteOverrun_eq_overrunOf]

/-- Routing passes on what is no break under RELEASE (R66, R95, R97). -/
theorem State.passOn_eq_passedOn {s : State} {x : LineNo} {c : Connection} {e : Entry} (hy : (s.line c.peer).state = .bridged)
    (hf : e.kind = .brk → c.breakAction = .forward) : s.passOn x c e = s.passedOn x c.peer e := by
  rw [← State.routeAppend_eq_passedOn hy]
  unfold State.passOn
  cases hk : e.kind with
  | brk => rw [hf hk]
  | data => rfl
  | error => rfl

theorem not_isEscape {c : Connection} {e : Entry} (h : e ≠ { kind := .data, value := c.escChar }) : isEscape c e = false := by
  rw [Bool.eq_false_iff]
  intro hall
  simp only [isEscape, Bool.and_eq_true, beq_iff_eq] at hall
  obtain ⟨k, v⟩ := e
  exact h (by rw [← hall.1, ← hall.2])

section
variable {s : State} {x y m : LineNo} {c : Connection} (fmt : Format) (e : Entry)

theorem State.heard_line_bearing : ((s.heard x c fmt e).line m).bearing = (s.line m).bearing := by
  obtain ⟨r, t, h⟩ := s.heard_line x m c fmt e
  rw [h]; rfl

theorem State.Bridged.heard (h : s.Bridged x y c) : (s.heard x c fmt e).Bridged x y c := by
  obtain ⟨hxy, hx, hy, hc, hp, hd⟩ := h
  have hkeeps : ∀ m, ((s.heard x c fmt e).line m).state = (s.line m).state ∧ ((s.heard x c fmt e).line m).conn = (s.line m).conn :=
    fun m => by
      obtain ⟨hs, hk, -⟩ := Line.bearing_eq_iff.mp (State.heard_line_bearing (s := s) (x := x) (c := c) (m := m) fmt e)
      exact ⟨hs, hk⟩
  exact ⟨hxy, (hkeeps x).1.trans hx, (hkeeps y).1.trans hy, (hkeeps x).2.trans hc, hp, by rw [(hkeeps y).2]; exact hd⟩

/-- A change of a BRIDGED line that leaves its state and its optional parts leaves the connection. -/
theorem State.Bridged.modLine (h : s.Bridged x y c) {f : Line → Line} (hs : ∀ l, (f l).state = l.state) (hk : ∀ l, (f l).conn = l.conn)
    (z : LineNo) : (s.modLine z f).Bridged x y c := by
  obtain ⟨hxy, hx, hy, hc, hp, hd⟩ := h
  exact ⟨hxy, (s.modLine_reads Line.state hs z x).trans hx, (s.modLine_reads Line.state hs z y).trans hy,
    (s.modLine_reads Line.conn hk z x).trans hc, hp, by rw [s.modLine_reads Line.conn hk z y]; exact hd⟩
end

/-- Settles O43: the monitor in each state without a match in progress, then the entry passed on. -/
theorem bridgedEntryJoinsPeerQueue : Obligations.bridged_entry_joins_peer_queue := by
  intro s x y c fmt data parity stop e hs hb hrx he hf hno
  rw [exec_frameComplete_bridged hs hb hrx he.symm hno]
  have hh := hb.heard fmt e
  have hm : ((s.heard x c fmt e).line x).monitor = (s.line x).monitor := (Line.bearing_eq_iff.mp (State.heard_line_bearing fmt e)).2.2
  have hpass : ∀ u : State, u.Bridged x y c → u.passOn x c e = u.passedOn x y e := by
    intro u hu
    obtain ⟨-, -, hy, -, hp, -⟩ := hu
    rw [State.passOn_eq_passedOn (by rw [hp]; exact hy) hf, hp]
  refine ⟨fun hst => ?off, fun hst => ?settling, fun hst hne => ?ready⟩
  case off =>
    simp only [State.monitorTake, hm, hst, hpass _ hh]
  case settling =>
    simp only [State.monitorTake, hm, hst, guardTimer_eq]
    exact congrArg _ (hpass _ (hh.modLine (by intro; rfl) (by intro; rfl) x))
  case ready =>
    simp only [State.monitorTake, hm, hst, not_isEscape hne, Bool.false_eq_true, if_false, State.settle, startedMonitor_eq]
    exact congrArg _ (hpass _ (hh.modLine (by intro; rfl) (by intro; rfl) x))

/-! ### What a release does not see of the monitors and the idle timer -/

theorem State.overrunOf_unwatched (s : State) (z x : LineNo) (p : Byte) :
    (s.modLine z Line.unwatched).overrunOf x p = (s.overrunOf x p).modLine z Line.unwatched := by
  simp only [State.overrunOf, s.modLine_reads Line.overrun (f := Line.unwatched) fun _ => rfl]
  split
  · rfl
  · exact congrArg (fun t : State => { t with host := postRecord .overrun (lineByte x) 0xFF p s.host })
      (s.modLine_comm_of (f := Line.unwatched) (g := fun l => { l with overrun := true }) (fun _ => rfl) z x)

theorem State.handedOver_unwatched (s : State) (z x y : LineNo) :
    (s.modLine z Line.unwatched).handedOver x y = (s.handedOver x y).modLine z Line.unwatched := by
  unfold State.handedOver
  dsimp only
  rw [s.modLine_reads (fun l => l.monitor.holding) (f := Line.unwatched) (fun _ => rfl),
    s.modLine_comm_of (f := Line.unwatched) (g := fun l => { l with monitor := { l.monitor with holding := [], count := 0 } })
      (fun _ => rfl), s.modLine_reads (fun l => l.tq.entries) (f := Line.unwatched) (fun _ => rfl)]
  generalize s.modLine x (fun l => { l with monitor := { l.monitor with holding := [], count := 0 } }) = t
  rw [unseen_unwatched.acceptedOf]
  generalize State.acceptedOf y (s.line x).monitor.holding t = accepted
  have hstart : (if accepted = [] then t.modLine z Line.unwatched else (t.modLine z Line.unwatched).modLine x fun l =>
      { l with overrun := false }) = (if accepted = [] then t else t.modLine x fun l => { l with overrun := false }).modLine z
        Line.unwatched := by
    split
    · rfl
    · exact t.modLine_comm_of (by intro; rfl) z x
  rw [hstart, unseen_unwatched.foldl_stored]
  generalize accepted.foldl (fun v e => v.stored y e) (if accepted = [] then t else t.modLine x fun l => { l with overrun := false }) = u
  have hbegun : (if accepted ≠ [] ∧ (s.line y).tq.entries = [] then (u.modLine z Line.unwatched).mayBegin y else
      u.modLine z Line.unwatched) =
      (if accepted ≠ [] ∧ (s.line y).tq.entries = [] then u.mayBegin y else u).modLine z Line.unwatched := by
    split
    · exact unseen_unwatched.mayBegin u z y
    · rfl
  rw [hbegun]
  split
  · exact State.overrunOf_unwatched _ z x _
  · rfl

/-- Steps 2 to 8 of the release step with a drain limit, behind the hand-over of both lists (R103). -/
def State.partedAt (s : State) (drainLimit : Byte) (x y : LineNo) (c : Connection) (reason : Byte) : State :=
  let s5 := (s.modLine x fun l => l.released drainLimit).modLine y fun l => l.released drainLimit
  let s6 := (s5.modLine x fun l => l.afterOccupancy l.rq.entries.length).modLine y fun l =>
    l.afterOccupancy l.rq.entries.length
  let s7 : State := { s6 with host := postRecord .released (lineByte x) (lineByte y) reason s6.host }
  match c.origin with
  | .ordered => s7
  | .standing i => s7.setRecord i (afterConnection reason (s7.record i))

/-- Steps 2 to 8 of the release step with the part's drain limit. -/
def State.parted (s : State) (x y : LineNo) (c : Connection) (reason : Byte) : State := s.partedAt s.drainLimit x y c reason

theorem State.Bridged.symm {s : State} {x y : LineNo} {c : Connection} (h : s.Bridged x y c) : ∃ d, s.Bridged y x d := by
  obtain ⟨hxy, hx, hy, hc, hp, hd⟩ := h
  obtain ⟨d, hdc, hdp⟩ := Option.map_eq_some_iff.mp hd
  exact ⟨d, hxy.symm, hy, hx, hdc, hdp, by rw [hc, Option.map_some, hp]⟩

section
variable {s : State} {x y : LineNo} {c : Connection}

theorem State.Bridged.handOver_eq (h : s.Bridged x y c) : s.handOver x y = s.handedOver x y :=
  State.handOver_eq_handedOver h.2.2.1

/-- Both lists are handed over as the statements put it, x's first. -/
theorem State.Bridged.handOver_both (h : s.Bridged x y c) :
    (s.handOver x y).handOver y x = (s.handedOver x y).handedOver y x := by
  obtain ⟨d, hd⟩ := (h.handedOver x y).symm
  rw [h.handOver_eq, hd.handOver_eq]

theorem State.Bridged.drainLimit (h : s.Bridged x y c) : ((s.handedOver x y).handedOver y x).drainLimit = s.drainLimit := by
  rw [← h.handOver_both]
  exact ((s.sameFrame_handOver x y).trans (State.sameFrame_handOver _ y x)).1

theorem State.connectionReleased_eq (h : s.Bridged x y c) (reason : Byte) :
    s.connectionReleased x y c reason = ((s.handedOver x y).handedOver y x).parted x y c reason := by
  refine Eq.trans ?_ (congrArg (fun d => (((s.handedOver x y).handedOver y x).partedAt d x y c reason)) h.drainLimit.symm)
  rfl

theorem State.parted_unwatched (s : State) (hxy : x ≠ y) (c : Connection) (reason : Byte) :
    ((s.modLine x Line.unwatched).modLine y Line.unwatched).parted x y c reason = s.parted x y c reason := by
  have h : (((s.modLine x Line.unwatched).modLine y Line.unwatched).modLine x fun l => l.released s.drainLimit).modLine y
      (fun l => l.released s.drainLimit) = (s.modLine x fun l => l.released s.drainLimit).modLine y fun l =>
        l.released s.drainLimit := State.modLine_regroup_two s hxy _ _ _ _
  have hd : ((s.modLine x Line.unwatched).modLine y Line.unwatched).drainLimit = s.drainLimit := rfl
  rw [State.parted, State.parted, hd, State.partedAt, State.partedAt, h]

/-- Two states that differ in what no release sees are released alike. -/
theorem State.connectionReleased_congr {t : State} (hs : s.Bridged x y c) (ht : t.Bridged x y c) (reason : Byte)
    (h : (s.modLine x Line.unwatched).modLine y Line.unwatched = (t.modLine x Line.unwatched).modLine y Line.unwatched) :
    s.connectionReleased x y c reason = t.connectionReleased x y c reason := by
  have hxy := hs.1
  rw [State.connectionReleased_eq hs, State.connectionReleased_eq ht, ← State.parted_unwatched _ hxy,
    ← State.parted_unwatched ((t.handedOver x y).handedOver y x) hxy]
  simp only [← State.handedOver_unwatched, h]
end

/-! ### The release step (R103) -/

theorem leaveBridge_eq_released (d : Byte) (l : Line) : leaveBridge d l = l.released d := by
  simp [leaveBridge, Line.released, startTimer, Config.ticksPerDrainUnit, ← BitVec.toNat_inj, Monitor.offValue]

theorem recordAfterRelease_eq (reason : ReleaseReason) (r : StandingRecord) :
    recordAfterRelease reason r = afterConnection (releaseInfo reason) r := by
  cases r with
  | active c => cases reason <;> simp [recordAfterRelease, afterConnection, releaseInfo]
  | empty => rfl
  | idle c => rfl
  | armed c => rfl

/-- The Hold Logic of a line that is not BRIDGED takes its own RQ (R42). -/
theorem State.holdEval_of_ne {s : State} {x : LineNo} (h : (s.line x).state ≠ .bridged) :
    s.holdEval x = s.modLine x fun l => l.afterOccupancy l.rq.entries.length := by
  rw [State.holdEval_eq, State.destination_of_ne h]
  exact State.modLine_congr rfl

/-- What the drain check comes to, as the statements put it (R110, R113, R140). -/
theorem State.drainCheck_drainChecked (s : State) (n : LineNo) : s.DrainChecked (s.drainCheck n) n := by
  unfold State.DrainChecked
  split
  · next h =>
    obtain ⟨hs, he, ht⟩ := h
    rw [State.drainCheck_of_drained hs he ht]
    exact s.returnToHost_evaluated n
  · next h =>
    rw [State.drainCheck, if_neg]
    rintro ⟨hs, hd⟩
    simp only [Line.drained, Bool.and_eq_true, List.isEmpty_iff, beq_iff_eq] at hd
    exact h ⟨hs, hd.1, hd.2⟩

/-- Steps 2 to 6 of the release step: both Hold Logics take their lines' own RQs (R103). -/
theorem State.holdEval_leaveBridge (s : State) {x y : LineNo} (hxy : x ≠ y) (d : Byte) :
    (((s.modLine x (leaveBridge d)).modLine y (leaveBridge d)).holdEval x).holdEval y =
      (((s.modLine x fun l => l.released d).modLine y fun l => l.released d).modLine x fun l =>
        l.afterOccupancy l.rq.entries.length).modLine y fun l => l.afterOccupancy l.rq.entries.length := by
  have hleave : leaveBridge d = fun l => l.released d := funext (leaveBridge_eq_released d)
  rw [hleave]
  have hx : (((s.modLine x fun l => l.released d).modLine y fun l => l.released d).line x).state = .draining := by
    rw [State.line_modLine_other _ _ hxy, State.line_modLine_same]; rfl
  have hy : ((((s.modLine x fun l => l.released d).modLine y fun l => l.released d).modLine x fun l =>
      l.afterOccupancy l.rq.entries.length).line y).state = .draining := by
    rw [State.line_modLine_other _ _ hxy.symm, State.line_modLine_same]; rfl
  rw [State.holdEval_of_ne (x := x) (by rw [hx]; decide), State.holdEval_of_ne (by rw [hy]; decide)]

/-- A BRIDGED line's release takes the whole release step (R103). -/
theorem State.release_releasesTo {s : State} {x y : LineNo} {c : Connection} (h : s.Bridged x y c) (reason : ReleaseReason) :
    s.ReleasesTo (s.release x reason) x y c (releaseInfo reason) := by
  have hboth := h.handOver_both
  have hlimit := h.drainLimit
  obtain ⟨hxy, hx, hy, hc, rfl, hd⟩ := h
  have hrelease : s.release x reason = s.releaseStep x c reason := by simp only [State.release, hx, hc]
  have h8 : s.releaseStep x c reason =
      ((s.connectionReleased x c.peer c (releaseInfo reason)).drainCheck x).drainCheck c.peer := by
    unfold State.releaseStep State.connectionReleased
    simp only [hboth, hlimit, State.holdEval_leaveBridge _ hxy]
    cases c.origin with
    | ordered => rfl
    | standing i => simp only [State.tellStanding, recordAfterRelease_eq]; rfl
  rw [hrelease, h8]
  exact ⟨_, State.drainCheck_drainChecked _ x, State.drainCheck_drainChecked _ c.peer⟩

end Sys2Proof.Machine

/-! PROOF. The causes of a release (O36), releases with complete drains (O37, O38) and matches that fail (O45). -/

namespace Sys2Proof.Machine

set_option Elab.async false

/-! ### Hand-overs that store nothing -/

theorem State.mayBegin_of_busy {s : State} {n : LineNo} (h : (s.line n).tx ≠ .idle) : s.mayBegin n = s := if_pos h

/-- The hand-over of an empty list clears the count and changes nothing else. -/
theorem State.handedOver_of_nil {s : State} {x : LineNo} (h : (s.line x).monitor.holding = []) (y : LineNo) :
    s.handedOver x y = s.modLine x fun l => { l with monitor := { l.monitor with holding := [], count := 0 } } := by
  simp only [State.handedOver, h, State.acceptedOf, ne_eq, not_true, false_and, if_false, if_true, List.foldl_nil, List.length_nil,
    Nat.lt_irrefl]

/-- A list handed over is empty behind it (R127, step 1). -/
theorem State.handedOver_line_monitor (s : State) (x y : LineNo) :
    ((s.handedOver x y).line x).monitor = { (s.line x).monitor with holding := [], count := 0 } := by
  rw [(Line.bearing_eq_iff.mp (s.handedOver_line_bearing x y x)).2.2, State.line_modLine_same]

/-! ### The causes of a release -/

section
variable {s t : State} {x y : LineNo} {c : Connection}

/-- What a hand-over of y's list and the rest of the release step do not see. -/
theorem State.handedOver_parted_congr (hxy : x ≠ y) (c : Connection) (reason : Byte)
    (h : (s.modLine x Line.unwatched).modLine y Line.unwatched = (t.modLine x Line.unwatched).modLine y Line.unwatched) :
    (s.handedOver y x).parted x y c reason = (t.handedOver y x).parted x y c reason := by
  rw [← State.parted_unwatched _ hxy, ← State.parted_unwatched (t.handedOver y x) hxy]
  simp only [← State.handedOver_unwatched, h]

theorem State.ReleasesTo.of_eq {u : State} {reason : Byte} (h : t.ReleasesTo u x y c reason)
    (he : t.connectionReleased x y c reason = s.connectionReleased x y c reason) : s.ReleasesTo u x y c reason := by
  rwa [State.ReleasesTo, ← he]

/-- The idle timer's restart is not seen by a release, whatever becomes of x's monitor (R66, R103). -/
theorem State.heard_unwatched (hxy : x ≠ y) (hp : c.peer = y) (fmt : Format) (e : Entry) {g : Line → Line}
    (hg : ∀ l t, (g { l with idleTimer := t }).unwatched = (g l).unwatched) :
    (((s.heard x c fmt e).modLine x g).modLine x Line.unwatched).modLine y Line.unwatched =
      (((s.modLine x fun l => { l with rx := if e.kind = .brk then .breakWait fmt else .idle [] }).modLine x g).modLine x
        Line.unwatched).modLine y Line.unwatched := by
  unfold State.heard
  generalize (if e.kind = .brk then .breakWait fmt else .idle [] : RxState) = r
  cases hr : c.role with
  | caller =>
    simp only [if_true, State.modLine_modLine]
    exact State.modLine_two_congr hxy (hg { s.line x with rx := r } _) rfl
  | called =>
    rw [if_neg (by decide), hp, State.modLine_regroup _ hxy, State.modLine_regroup _ hxy]
    simp only [State.modLine_modLine]
    exact State.modLine_two_congr hxy rfl rfl

/-- A match that failed before a release has been handed over before it, and the release hands over nothing more of x (R103, R127). -/
theorem State.connectionReleased_of_settled (hb : s.Bridged x y c) (reason : Byte) :
    ((s.handedOver x y).settle x c).connectionReleased x y c reason = s.connectionReleased x y c reason := by
  have hw := (hb.handedOver x y).modLine (f := fun l => { l with monitor := startedMonitor c }) (fun _ => rfl) (fun _ => rfl) x
  have hnil : (startedMonitor c).holding = [] := by rw [startedMonitor_eq, unmatched]; split <;> rfl
  have hlist : ((s.handedOver x y).line x).monitor.holding = [] := by rw [State.handedOver_line_monitor]
  have hagain := State.handedOver_of_nil (s := (s.handedOver x y).settle x c) (x := x)
    (by rw [State.settle, State.line_modLine_same]; exact hnil) y
  rw [State.connectionReleased_eq hb, State.connectionReleased_eq (s := (s.handedOver x y).settle x c) hw, hagain]
  refine State.handedOver_parted_congr hb.1 c reason ?_
  simp only [State.settle, State.modLine_modLine]
  exact State.modLine_two_congr hb.1 (by simp [Line.unwatched, hlist]) rfl

/-- A break received under RELEASE is a release in every state of the monitor (R97, R123 to R125). -/
theorem State.monitorTake_break {e : Entry} (hb : s.Bridged x y c) (fmt : Format) (he : e.kind = .brk) (ha : c.breakAction = .release)
    (hready : (s.line x).monitor.state = .ready → (s.line x).monitor.holding = []) :
    (s.modLine x fun l => { l with rx := .breakWait fmt }).ReleasesTo ((s.heard x c fmt e).monitorTake x c e) x y c 0x03 := by
  have hh := hb.heard fmt e
  have hu := hb.modLine (f := fun l => { l with rx := .breakWait fmt }) (fun _ => rfl) (fun _ => rfl) x
  have hm : ((s.heard x c fmt e).line x).monitor = (s.line x).monitor := (Line.bearing_eq_iff.mp (State.heard_line_bearing fmt e)).2.2
  have hpass : ∀ v : State, v.passOn x c e = v.release x .brk := fun v => by simp only [State.passOn, he, ha]
  have hesc : isEscape c e = false := by simp [isEscape, he]
  have hheard : ∀ g : Line → Line, (∀ l t, (g { l with idleTimer := t }).unwatched = (g l).unwatched) →
      (((s.heard x c fmt e).modLine x g).modLine x Line.unwatched).modLine y Line.unwatched =
      (((s.modLine x fun l => { l with rx := .breakWait fmt }).modLine x g).modLine x Line.unwatched).modLine y Line.unwatched :=
    fun g hg => by rw [State.heard_unwatched hb.1 hb.2.2.2.2.1 fmt e hg, if_pos he]
  have hrelease : ∀ v : State, v.Bridged x y c → v.connectionReleased x y c 0x03 =
      (s.modLine x fun l => { l with rx := .breakWait fmt }).connectionReleased x y c 0x03 →
      (s.modLine x fun l => { l with rx := .breakWait fmt }).ReleasesTo (v.release x .brk) x y c 0x03 :=
    fun v hv hve => (State.release_releasesTo hv .brk).of_eq hve
  have hbare : (s.heard x c fmt e).connectionReleased x y c 0x03 =
      (s.modLine x fun l => { l with rx := .breakWait fmt }).connectionReleased x y c 0x03 :=
    State.connectionReleased_congr hh hu _ (by
      simpa only [State.modLine_id (f := fun l : Line => l) rfl] using hheard (fun l => l) fun _ _ => rfl)
  have hfailed := hrelease (((s.heard x c fmt e).handedOver x y).settle x c)
    ((hh.handedOver x y).modLine (f := fun l => { l with monitor := startedMonitor c }) (fun _ => rfl) (fun _ => rfl) x)
    ((State.connectionReleased_of_settled hh _).trans hbare)
  have hfail : (s.heard x c fmt e).failMatch x c = (s.heard x c fmt e).handedOver x y := by
    rw [State.failMatch, hb.2.2.2.2.1, hh.handOver_eq]
  unfold State.monitorTake
  simp only [hm, hesc, hpass, hfail, Bool.false_eq_true, if_false]
  cases hst : (s.line x).monitor.state with
  | off => exact hrelease _ hh hbare
  | settling =>
    refine hrelease _ (hh.modLine (by intro; rfl) (by intro; rfl) x) (State.connectionReleased_congr
      (hh.modLine (by intro; rfl) (by intro; rfl) x) hu _ ((hheard _ (by intros; rfl)).trans ?_))
    simp only [State.modLine_modLine]
    rfl
  | ready =>
    refine hrelease _ (hh.modLine (by intro; rfl) (by intro; rfl) x) (State.connectionReleased_congr
      (hh.modLine (by intro; rfl) (by intro; rfl) x) hu _ ((hheard _ (by intros; rfl)).trans ?_))
    have hnil : (startedMonitor c).holding = [] := by rw [startedMonitor_eq, unmatched]; split <;> rfl
    simp only [State.modLine_modLine]
    exact State.modLine_two_congr hb.1 (by simp [Line.unwatched, hnil, hready hst]) rfl
  | counting => exact hfailed
  | confirming => exact hfailed

/-- An escape detected at its last character is a release without the held characters (R123, R124, R128). -/
theorem State.holdEscape_detects {e : Entry} (hb : s.Bridged x y c) (fmt : Format) (he : e.kind ≠ .brk)
    (hk : (s.line x).monitor.count + 1 = c.escCount.toNat) (hg : c.guardTime = 0) :
    (s.modLine x fun l => { l with rx := .idle [], monitor := { l.monitor with count := 0, holding := [] } }).ReleasesTo
      ((s.heard x c fmt e).holdEscape x c e) x y c 0x02 := by
  have hm : ((s.heard x c fmt e).line x).monitor = (s.line x).monitor := (Line.bearing_eq_iff.mp (State.heard_line_bearing fmt e)).2.2
  unfold State.holdEscape
  simp only [hm, hk, hg, and_self, if_true, State.detectEscape, State.modLine_modLine]
  have hv := (hb.heard fmt e).modLine (f := fun l => { l with monitor :=
    { state := .confirming, count := 0, silence := guardTimer c, holding := [] } }) (fun _ => rfl) (fun _ => rfl) x
  refine (State.release_releasesTo hv .escape).of_eq (State.connectionReleased_congr hv
    (hb.modLine (by intro; rfl) (by intro; rfl) x) _ ((State.heard_unwatched hb.1 hb.2.2.2.2.1 fmt e (by intros; rfl)).trans ?_))
  rw [if_neg he]
  simp only [State.modLine_modLine]
  rfl
end

/-- Settles O36: each cause comes to `State.release`, and what has changed before it is not seen by the release step. -/
theorem releaseStepOfEachCause : Obligations.release_step_of_each_cause := by
  intro s x y c hs hb
  obtain ⟨-, hx, -, hc, -, -⟩ := id hb
  refine ⟨fun h => ?host, fun hst ht => ?confirmed, fun fmt data parity stop hrx => ⟨fun hcl hno hst hk hg => ?detected,
    fun hk ha hready => ?broken⟩, fun hdue hsample => ?lost, fun ht => ?idle⟩
  case host =>
    exact ⟨_, exec_checkLine_accepted (c := .release) h rfl (by simp only [hx]) rfl, State.release_releasesTo hb .host⟩
  case confirmed =>
    refine ⟨_, whileRunning_of_high hs (silenceExpiry x), ?_⟩
    rw [silenceExpiry, if_pos ((timerDue_iff _).mpr ht)]
    simp only [hst, hc]
    exact State.release_releasesTo (hb.modLine (by intro; rfl) (by intro; rfl) x) .escape
  case detected =>
    refine ⟨_, exec_frameComplete_bridged hs hb hrx hcl hno, ?_⟩
    have hm : ((s.heard x c fmt { kind := .data, value := c.escChar }).line x).monitor = (s.line x).monitor :=
      (Line.bearing_eq_iff.mp (State.heard_line_bearing fmt _)).2.2
    have hesc : isEscape c { kind := .data, value := c.escChar } = true := by simp [isEscape]
    have htake : (s.heard x c fmt { kind := .data, value := c.escChar }).monitorTake x c { kind := .data, value := c.escChar } =
        (s.heard x c fmt { kind := .data, value := c.escChar }).holdEscape x c { kind := .data, value := c.escChar } := by
      rcases hst with h | h <;> simp only [State.monitorTake, hm, h, hesc, if_true]
    rw [htake]
    exact State.holdEscape_detects hb fmt (by simp) hk hg
  case broken =>
    exact ⟨_, exec_frameComplete_bridged hs hb hrx rfl (.inr (.inl (by simp [hk]))), State.monitorTake_break hb fmt hk ha hready⟩
  case lost =>
    rw [exec_readyRecognition hs hdue, if_neg (by simp [hsample])]
    have hu : (s.modLine x fun l => { l with ready := l.rdySample, graceCount := 0, readyDue := .none }) =
        s.modLine x fun l => { l with ready := false, graceCount := 0, readyDue := .none } :=
      State.modLine_congr (by simp only [hsample])
    refine ⟨_, rfl, ?_⟩
    rw [hu]
    simp only [State.readyChanged, State.line_modLine_same, hx, hsample]
    exact State.release_releasesTo (hb.modLine (by intro; rfl) (by intro; rfl) x) .readyLost
  case idle =>
    refine ⟨_, whileRunning_of_high hs (idleExpiry x), ?_⟩
    rw [idleExpiry, if_pos ((timerDue_iff _).mpr ht)]
    exact State.release_releasesTo hb .idle

end Sys2Proof.Machine

/-! PROOF. Releases with complete drains (O37, O38), and matches that fail (O45). -/

namespace Sys2Proof.Machine

set_option Elab.async false

/-! ### Releases with nothing to hand over and nothing to send -/

/-- A line whose connection is released, with its Hold Logic set on its own RQ (R103, steps 2 to 6). -/
def Line.freed (l : Line) (drainLimit : Byte) : Line := (l.released drainLimit).afterOccupancy l.rq.entries.length

theorem Line.afterOccupancy_tally (l : Line) (k : Nat) : (l.afterOccupancy k).tally = l.tally := by
  unfold Line.afterOccupancy; dsimp only; split <;> rfl

section
variable (l : Line) (d : Byte)

@[simp] theorem Line.freed_state : (l.freed d).state = .draining := by simp [Line.freed, Line.released]
@[simp] theorem Line.freed_tq : (l.freed d).tq = l.tq := by simp [Line.freed, Line.released]
@[simp] theorem Line.freed_ready : (l.freed d).ready = l.ready := by simp [Line.freed, Line.released]
@[simp] theorem Line.freed_tally : (l.freed d).tally = 0 := by simp [Line.freed, Line.released, Line.afterOccupancy_tally]
end

section
variable {s : State} {x y : LineNo} {c : Connection}

/-- The release step of two lines that hold nothing back (R103, steps 1 to 8). -/
theorem State.connectionReleased_of_nil (hb : s.Bridged x y c) (hx : (s.line x).monitor.holding = [])
    (hy : (s.line y).monitor.holding = []) (reason : Byte) : s.connectionReleased x y c reason = s.parted x y c reason := by
  have hxy := hb.1
  have hy' : ((s.handedOver x y).line y).monitor.holding = [] := by
    rw [State.handedOver_of_nil hx, State.line_modLine_other _ _ hxy.symm]; exact hy
  rw [State.connectionReleased_eq hb, State.handedOver_of_nil hy', State.handedOver_of_nil hx, ← State.parted_unwatched _ hxy,
    ← State.parted_unwatched s hxy]
  congr 1
  rw [State.modLine_regroup_two s hxy]
  exact State.modLine_two_congr hxy (by simp [Line.unwatched, hx]) (by simp [Line.unwatched, hy])

/-- The two lines parted, each in one change, and RELEASED posted. -/
def State.partedLines (s : State) (x y : LineNo) (reason : Byte) : State :=
  { ((s.modLine x fun l => l.freed s.drainLimit).modLine y fun l => l.freed s.drainLimit) with
    host := postRecord .released (lineByte x) (lineByte y) reason s.host }

theorem State.parted_eq (s : State) (hxy : x ≠ y) (c : Connection) (reason : Byte) : s.parted x y c reason =
    match c.origin with
    | .ordered => s.partedLines x y reason
    | .standing i => (s.partedLines x y reason).setRecord i (afterConnection reason (s.record i)) := by
  have h : (((s.modLine x fun l => l.released s.drainLimit).modLine y fun l => l.released s.drainLimit).modLine x
      fun l => l.afterOccupancy l.rq.entries.length).modLine y (fun l => l.afterOccupancy l.rq.entries.length) =
      (s.modLine x fun l => l.freed s.drainLimit).modLine y fun l => l.freed s.drainLimit :=
    State.modLine_regroup_two s hxy _ _ _ _
  rw [State.parted, State.partedAt, h]
  cases c.origin <;> rfl

theorem State.partedLines_line_fst (hxy : x ≠ y) (reason : Byte) :
    (s.partedLines x y reason).line x = (s.line x).freed s.drainLimit := by
  have h : (s.partedLines x y reason).line x =
      ((s.modLine x fun l => l.freed s.drainLimit).modLine y fun l => l.freed s.drainLimit).line x := rfl
  rw [h, State.line_modLine_other _ _ hxy, State.line_modLine_same]

theorem State.partedLines_line_snd (hxy : x ≠ y) (reason : Byte) :
    (s.partedLines x y reason).line y = (s.line y).freed s.drainLimit := by
  have h : (s.partedLines x y reason).line y =
      ((s.modLine x fun l => l.freed s.drainLimit).modLine y fun l => l.freed s.drainLimit).line y := rfl
  rw [h, State.line_modLine_same, State.line_modLine_other _ _ hxy.symm]

theorem State.returned_line (s : State) (n m : LineNo) : (s.returned n).line m =
    (s.modLine n fun l => { l with state := .host, drainTimer := none, tally := 0 }).line m := rfl

/-- Both lines parted and returned, with nothing sent or discarded meanwhile (R103, R113). -/
theorem State.partedLines_returned (hxy : x ≠ y) (reason : Byte) : ((s.partedLines x y reason).returned x).returned y =
    { ((s.modLine x fun l => { l.freed s.drainLimit with state := .host, drainTimer := none }).modLine y fun l =>
        { l.freed s.drainLimit with state := .host, drainTimer := none }) with
      host := postRecord .drained (lineByte y) 0xFF 0 (postRecord .drained (lineByte x) 0xFF 0
        (postRecord .released (lineByte x) (lineByte y) reason s.host)) } := by
  have hx : ((s.partedLines x y reason).line x).tally = 0 := by rw [State.partedLines_line_fst hxy, Line.freed_tally]
  have hy : (((s.partedLines x y reason).returned x).line y).tally = 0 := by
    rw [State.returned_line, State.line_modLine_other _ _ hxy.symm, State.partedLines_line_snd hxy, Line.freed_tally]
  have hlines : (((s.modLine x fun l => l.freed s.drainLimit).modLine y fun l => l.freed s.drainLimit).modLine x fun l =>
      { l with state := .host, drainTimer := none, tally := 0 }).modLine y (fun l =>
      { l with state := .host, drainTimer := none, tally := 0 }) =
      (s.modLine x fun l => { l.freed s.drainLimit with state := .host, drainTimer := none }).modLine y fun l =>
        { l.freed s.drainLimit with state := .host, drainTimer := none } := by
    have htally : ∀ l : Line, ({ l.freed s.drainLimit with state := .host, drainTimer := none, tally := 0 } : Line) =
        { l.freed s.drainLimit with state := .host, drainTimer := none } := fun l => by
      rw [← Line.freed_tally l s.drainLimit]
    rw [State.modLine_regroup_two s hxy]
    simp only [htally]
  rw [State.returned, hy, State.returned, hx, ← hlines]
  rfl

theorem State.Evaluated.eq_of_unreserved {t : State} {n : LineNo} (h : s.Evaluated t n) (hn : s.Unreserved n) : t = s := by
  refine h.1 fun i d hi hd => ?_
  have hr := hn i
  rw [hi, reserves_armed.mpr hd] at hr
  cases hr

theorem State.DrainChecked.of_drained {t : State} {n : LineNo} (h : s.DrainChecked t n) (hs : (s.line n).state = .draining)
    (he : (s.line n).tq.entries = []) (ht : (s.line n).tx = .idle) : (s.returned n).Evaluated t n := by
  rwa [State.DrainChecked, if_pos ⟨hs, he, ht⟩] at h
end

/-- Settles O37: the release step of the lines as they are, then the return of each. -/
theorem releaseWithCompleteDrains : Obligations.release_with_complete_drains := by
  rintro s x y c h hb ho hux huy freed rfl hsilent
  have hxy := hb.1
  obtain ⟨hex, hlx, htx⟩ := hsilent x (.inl rfl)
  obtain ⟨hey, hly, hty⟩ := hsilent y (.inr rfl)
  have hexec : exec .release s = .next ((s.release x .host).withResult .done) :=
    exec_checkLine_accepted (c := .release) h rfl (by simp only [hb.2.1]) rfl
  have hp : s.connectionReleased x y c 0x01 = s.partedLines x y 0x01 := by
    rw [State.connectionReleased_of_nil hb hlx hly, State.parted_eq s hxy, ho]
  obtain ⟨u, hu, ht⟩ := State.release_releasesTo hb .host
  rw [show releaseInfo .host = 0x01 from rfl, hp] at hu
  have hx := State.partedLines_line_fst (s := s) hxy 0x01
  have hy := State.partedLines_line_snd (s := s) hxy 0x01
  have hret : u = (s.partedLines x y 0x01).returned x :=
    (hu.of_drained (by rw [hx, Line.freed_state]) (by rw [hx, Line.freed_tq, hex]) (by rw [hx]; exact htx)).eq_of_unreserved hux
  have hy' : (u.line y) = (s.line y).freed s.drainLimit := by
    rw [hret, State.returned_line, State.line_modLine_other _ _ hxy.symm, hy]
  have hret' : s.release x .host = u.returned y :=
    (ht.of_drained (by rw [hy', Line.freed_state]) (by rw [hy', Line.freed_tq, hey]) (by rw [hy']; exact hty)).eq_of_unreserved
      (by rw [hret]; exact huy)
  rw [hexec, hret', hret, State.partedLines_returned hxy]
  rfl

/-- What stood in a record that an establishment makes ACTIVE does not matter to it. -/
theorem State.setRecord_withConnection (s : State) (i : SlotNo) (r : StandingRecord) (d : Contents) :
    (s.setRecord i r).withConnection i d = s.withConnection i d := by
  have h : ((s.setRecord i r).setRecord i (.active d)).standing = (s.setRecord i (.active d)).standing := by
    rw [State.setRecord_setRecord]
  exact State.ext_lines (fun _ => rfl) rfl rfl h rfl rfl rfl rfl rfl rfl

/-- Settles O38: the release leaves the record ARMED, and the return of the second line brings about its conditions. -/
theorem idleReleaseRenewsStandingConnection : Obligations.idle_release_renews_standing_connection := by
  rintro s x y c i d hs hb ho hi hd hothers freed rfl hsilent ht
  have hxy := hb.1
  obtain ⟨hex, hlx, htx, hrx⟩ := hsilent x (.inl rfl)
  obtain ⟨hey, hly, hty, hry⟩ := hsilent y (.inr rfl)
  have hexec : exec (.idleTimerExpiry x) s = .next (s.release x .idle) :=
    (whileRunning_of_high hs (idleExpiry x)).trans (by rw [idleExpiry, if_pos ((timerDue_iff _).mpr ht)])
  have hp : s.connectionReleased x y c 0x05 = (s.partedLines x y 0x05).setRecord i (.armed d) := by
    rw [State.connectionReleased_of_nil hb hlx hly, State.parted_eq s hxy, ho]
    simp only [hi, afterConnection]
    rfl
  set p := (s.partedLines x y 0x05).setRecord i (.armed d) with hpdef
  obtain ⟨u, hu, hv⟩ := State.release_releasesTo hb .idle
  rw [show releaseInfo .idle = 0x05 from rfl, hp] at hu
  have hx : p.line x = (s.line x).freed s.drainLimit := State.partedLines_line_fst hxy 0x05
  have hy : p.line y = (s.line y).freed s.drainLimit := State.partedLines_line_snd hxy 0x05
  have hrecord : p.record i = .armed d := State.record_setRecord_same _ i _
  have hother : ∀ j, j ≠ i → p.record j = s.record j := fun j hj => State.record_setRecord_other _ _ hj
  have hret : u = p.returned x := by
    refine (hu.of_drained (by rw [hx, Line.freed_state]) (by rw [hx, Line.freed_tq, hex]) (by rw [hx]; exact htx)).1 ?_
    intro j e hj hn hc
    by_cases hji : j = i
    · subst hji
      obtain rfl : d = e := StandingRecord.armed.inj (hrecord.symm.trans hj)
      have hstate := (hc y (hd.symm.imp And.right And.right)).1
      rw [State.returned_line, State.line_modLine_other _ _ hxy.symm, hy, Line.freed_state] at hstate
      cases hstate
    · have hr := (hothers j hji).1
      rw [← hother j hji, show p.record j = .armed e from hj, reserves_armed.mpr hn] at hr
      cases hr
  have hy' : u.line y = (s.line y).freed s.drainLimit := by
    rw [hret, State.returned_line, State.line_modLine_other _ _ hxy.symm, hy]
  have hab : d.lineA ≠ d.lineB := by
    rcases hd with ⟨h1, h2⟩ | ⟨h1, h2⟩
    · rw [← h1, ← h2]; exact hxy
    · rw [← h1, ← h2]; exact hxy.symm
  have hcond : (u.returned y).Conditions d := by
    have hx' : ((u.returned y).line x) = { (s.line x).freed s.drainLimit with state := .host, drainTimer := none, tally := 0 } := by
      rw [State.returned_line, State.line_modLine_other _ _ hxy, hret, State.returned_line, State.line_modLine_same, hx]
    have hy'' : ((u.returned y).line y) = { (s.line y).freed s.drainLimit with state := .host, drainTimer := none, tally := 0 } := by
      rw [State.returned_line, State.line_modLine_same, hy']
    have hboth : ∀ n, n = x ∨ n = y → ((u.returned y).line n).state = .host ∧ ((u.returned y).line n).tq.entries = [] ∧
        ((u.returned y).line n).ready = true := by
      rintro n (rfl | rfl)
      · rw [hx']; exact ⟨rfl, by rw [Line.freed_tq, hex], by rw [Line.freed_ready, hrx]⟩
      · rw [hy'']; exact ⟨rfl, by rw [Line.freed_tq, hey], by rw [Line.freed_ready, hry]⟩
    intro n hn
    refine hboth n ?_
    rcases hd with ⟨h1, h2⟩ | ⟨h1, h2⟩
    · rwa [h1, h2]
    · rw [h1, h2]; exact hn.symm
  have hrenewed : s.release x .idle = (u.returned y).withConnection i d := by
    refine (hv.of_drained (by rw [hy', Line.freed_state]) (by rw [hy', Line.freed_tq, hey]) (by rw [hy']; exact hty)).2 i d
      (by rw [hret]; exact hrecord) ?_ hab (fun j hj => ?_) hcond
    · rcases hd with ⟨-, h⟩ | ⟨-, h⟩
      · exact .inr h.symm
      · exact .inl h.symm
    · rw [show (u.returned y).record j = s.record j by rw [hret]; exact hother j hj]
      exact (hothers j hj).2
  have hmoved : (p.returned x).returned y = (((s.partedLines x y 0x05).returned x).returned y).setRecord i (.armed d) := rfl
  rw [hexec, hrenewed, hret, hmoved, State.setRecord_withConnection, State.partedLines_returned hxy]
  rfl

/-! ### Batches stored in the tail cell -/

theorem Queue.tailRoom_append (q : Queue) (e : Entry) :
    ({ q with entries := q.entries ++ [e] } : Queue).tailRoom = q.tailRoom - 1 := by
  simp only [Queue.tailRoom, Queue.held, Queue.occupancy, List.length_append, List.length_singleton]
  omega

/-- An entry stored in the tail cell moves no cell (R23). -/
theorem State.stored_queue_of_room {s : State} {y : LineNo} (h : 0 < (s.line y).tq.tailRoom) (e : Entry) (q : QueueId) :
    (s.stored y e).queue q = if q = .tq y then { s.queue q with entries := (s.queue q).entries ++ [e] } else s.queue q := by
  have hentry : (s.line y).tq.withEntry s.freeList e = { (s.line y).tq with entries := (s.line y).tq.entries ++ [e] } := if_pos h
  cases q with
  | rq n =>
    rw [if_neg (by simp), State.queue, State.stored, State.feederSees_line_rq]
    exact State.modLine_reads _ Line.rq (by intro; rfl) y n
  | tq n =>
    rw [State.queue, State.stored, State.feederSees_line_tq]
    by_cases hn : n = y
    · subst hn
      rw [if_pos rfl, State.line_modLine_same]
      exact hentry
    · rw [if_neg (by simpa using hn), State.line_modLine_other _ _ hn]
      rfl

section
variable (y m : LineNo) (es : List Entry) (s : State)

theorem State.foldl_stored_host : (es.foldl (fun v e => v.stored y e) s).host = s.host :=
  List.foldlRecOn (motive := fun t : State => t.host = s.host) es _ rfl fun t ht e _ => (t.stored_host y e).trans ht

theorem State.foldl_stored_line_overrun : ((es.foldl (fun v e => v.stored y e) s).line m).overrun = (s.line m).overrun :=
  List.foldlRecOn (motive := fun t : State => (t.line m).overrun = (s.line m).overrun) es _ rfl
    fun t ht e _ => (t.stored_line_overrun y m e).trans ht

theorem State.foldl_stored_line_tx (h : (s.line m).tx ≠ .idle) : ((es.foldl (fun v e => v.stored y e) s).line m).tx ≠ .idle :=
  List.foldlRecOn (motive := fun t : State => (t.line m).tx ≠ .idle) es _ h
    fun t ht e _ => by rw [t.stored_line_tx y m e ht]; exact ht
end

/-- A batch for which the tail cell has room is stored, and moves no cell (R23, R25). -/
theorem State.acceptedOf_of_room (y : LineNo) (es : List Entry) (s : State) (h : es.length ≤ (s.line y).tq.tailRoom) :
    State.acceptedOf y es s = es ∧ (es.foldl (fun v e => v.stored y e) s).freeList = s.freeList ∧
    ∀ q, (es.foldl (fun v e => v.stored y e) s).queue q =
      if q = .tq y then { s.queue q with entries := (s.queue q).entries ++ es } else s.queue q := by
  induction es generalizing s with
  | nil => exact ⟨rfl, rfl, fun q => by simp⟩
  | cons e es ih =>
    rw [List.length_cons] at h
    have hroom : 0 < (s.line y).tq.tailRoom := by omega
    have hfree : (s.stored y e).freeList = s.freeList := by rw [State.stored_freeList, Queue.freeAfter, if_pos hroom]
    have htq : ((s.stored y e).line y).tq = { (s.line y).tq with entries := (s.line y).tq.entries ++ [e] } := by
      exact (State.stored_queue_of_room hroom e (.tq y)).trans (if_pos rfl)
    obtain ⟨hacc, hf, hq⟩ := ih (s.stored y e) (by rw [htq, Queue.tailRoom_append]; omega)
    refine ⟨by rw [State.acceptedOf_of_accepts _ _ (.inl hroom), hacc], hf.trans hfree, fun q => ?_⟩
    rw [List.foldl_cons, hq, State.stored_queue_of_room hroom]
    split <;> simp

/-- A batch whose first part is accepted goes on behind it (R25). -/
theorem State.acceptedOf_append (y : LineNo) (a b : List Entry) (s : State) (h : State.acceptedOf y a s = a) :
    State.acceptedOf y (a ++ b) s = a ++ State.acceptedOf y b (a.foldl (fun v e => v.stored y e) s) := by
  induction a generalizing s with
  | nil => rfl
  | cons e a ih =>
    by_cases hs : s.Accepts (.tq y)
    · rw [State.acceptedOf_of_accepts _ _ hs] at h
      rw [List.cons_append, State.acceptedOf_of_accepts _ _ hs, ih _ (List.cons.inj h).2]
      rfl
    · rw [State.acceptedOf_of_refused _ _ hs] at h
      cases h

theorem State.grantable_congr {s t : State} (hf : t.freeList = s.freeList) (hq : ∀ q, (t.queue q).chain = (s.queue q).chain ∧
    (t.queue q).reserve = (s.queue q).reserve ∧ (t.queue q).limit = (s.queue q).limit) (q : QueueId) :
    t.grantable q = s.grantable q := by
  have hheld : ∀ p, (t.queue p).held = (s.queue p).held := fun p => congrArg List.length (hq p).1
  have hunmet : ∀ p, (t.queue p).unmet = (s.queue p).unmet := fun p => by rw [Queue.unmet, Queue.unmet, (hq p).2.1, hheld]
  rw [Bool.eq_iff_iff, State.grantable_iff, State.grantable_iff]
  simp only [State.unmetOthers, State.freeCount, hf, hheld, hunmet, hq]

/-- A batch longer than the tail cell's room, with no cell to be granted, is stored up to the room (R23, R25). -/
theorem State.acceptedOf_take (y : LineNo) (es : List Entry) (s : State) (h : (s.line y).tq.tailRoom < es.length)
    (hg : s.grantable (.tq y) = false) : State.acceptedOf y es s = es.take (s.line y).tq.tailRoom := by
  set k := (s.line y).tq.tailRoom with hk
  have hlen : (es.take k).length = k := by rw [List.length_take]; omega
  obtain ⟨hacc, hf, hq⟩ := State.acceptedOf_of_room y (es.take k) s (by rw [hlen])
  obtain ⟨e, rest, hrest⟩ := List.exists_cons_of_ne_nil (l := es.drop k) (by simp only [ne_eq, List.drop_eq_nil_iff]; omega)
  have hfull : ¬ ((es.take k).foldl (fun v e => v.stored y e) s).Accepts (.tq y) := by
    have hroom : (((es.take k).foldl (fun v e => v.stored y e) s).queue (.tq y)).tailRoom = 0 := by
      rw [hq, if_pos rfl]
      have hl : (s.queue (.tq y)).tailRoom = k := hk.symm
      simp only [Queue.tailRoom, Queue.held, Queue.occupancy, List.length_append, hlen] at hl ⊢
      omega
    have hgrant : ((es.take k).foldl (fun v e => v.stored y e) s).grantable (.tq y) = false := by
      rw [State.grantable_congr hf (fun q => by rw [hq]; split <;> exact ⟨rfl, rfl, rfl⟩), hg]
    simp [State.Accepts, hroom, hgrant]
  conv_lhs => rw [← List.take_append_drop k es]
  rw [State.acceptedOf_append _ _ _ _ hacc, hrest, State.acceptedOf_of_refused _ _ hfull, List.append_nil]

/-! ### Matches that fail -/

/-- An overrun leaves the queues alone and the flag set, and is reported if the flag was clear (R67). -/
theorem State.overrunOf_reports (s : State) (x : LineNo) (p : Byte) : (∀ n, ((s.overrunOf x p).line n).tq = (s.line n).tq) ∧
    ((s.overrunOf x p).line x).overrun = true ∧ (s.overrunOf x p).freeList = s.freeList ∧
    (s.overrunOf x p).host = if (s.line x).overrun then s.host else postRecord .overrun (lineByte x) 0xFF p s.host := by
  unfold State.overrunOf
  split
  · next h => exact ⟨fun _ => rfl, h, rfl, rfl⟩
  · have hline : ∀ n, (s.modLine x fun l => { l with overrun := true }).line n =
        ({ s.modLine x fun l => { l with overrun := true } with host := postRecord .overrun (lineByte x) 0xFF p s.host } : State).line n :=
      fun _ => rfl
    refine ⟨fun n => ?_, ?_, rfl, rfl⟩
    · rw [← hline]; exact s.modLine_reads Line.tq (by intro; rfl) x n
    · rw [← hline, State.line_modLine_same]

/-- The hand-over to a busy transmitter stores what the TQ accepts, and reports a rest (R25, R69). -/
theorem State.handedOver_of_busy {s : State} {x y : LineNo} (hy : (s.line y).tx ≠ .idle) {accepted : List Entry}
    (ha : State.acceptedOf y (s.line x).monitor.holding s = accepted) :
    (accepted = [] → (s.line x).monitor.holding ≠ [] → s.handedOver x y =
      (s.modLine x fun l => { l with monitor := { l.monitor with holding := [], count := 0 } }).overrunOf x 0x01) ∧
    (accepted ≠ [] → s.handedOver x y = if accepted.length < (s.line x).monitor.holding.length then
        (accepted.foldl (fun v e => v.stored y e) (s.modLine x fun l =>
          { l with monitor := { l.monitor with holding := [], count := 0 }, overrun := false })).overrunOf x 0x01
      else accepted.foldl (fun v e => v.stored y e) (s.modLine x fun l =>
        { l with monitor := { l.monitor with holding := [], count := 0 }, overrun := false })) := by
  have hunseen : Line.Unseen fun l => { l with monitor := { l.monitor with holding := [], count := 0 } } :=
    ⟨fun _ => rfl, fun _ => rfl, fun _ => rfl, fun _ => rfl, fun _ => rfl, fun _ => rfl, fun _ => rfl, fun _ => rfl, fun _ => rfl,
      fun _ => rfl, fun _ => rfl, fun _ => rfl, fun _ _ _ _ _ _ => rfl⟩
  refine ⟨fun h hb => ?_, fun h => ?_⟩
  · rw [State.handedOver]
    simp only [hunseen.acceptedOf, ha, h, List.length_nil, List.length_pos_iff.mpr hb, if_true, List.foldl_nil, ne_eq, not_true,
      false_and, if_false]
  · rw [State.handedOver]
    simp only [hunseen.acceptedOf, ha, if_neg h, State.modLine_modLine]
    rw [State.mayBegin_of_busy, ite_self]
    refine State.foldl_stored_line_tx y y accepted _ ?_
    rw [State.modLine_reads _ Line.tx (by intro; rfl)]
    exact hy

/-- Settles O45: the list handed over, then the monitor's next state and the entry that made the match fail. -/
theorem failedMatchForwardsHeldEntries : Obligations.failed_match_forwards_held_entries := by
  intro s x y c hs hb
  have hxy := hb.1
  refine ⟨fun fmt data parity stop e hrx he hf hno hst => ?entry, fun hst ht => ⟨_, ?expiry, rfl, fun hy hne => ⟨fun hroom => ?whole,
    fun k hk hlen hg => ?part⟩⟩⟩
  case entry =>
    have hh := hb.heard fmt e
    have hm : ((s.heard x c fmt e).line x).monitor = (s.line x).monitor := (Line.bearing_eq_iff.mp (State.heard_line_bearing fmt e)).2.2
    have hu : (((s.heard x c fmt e).handedOver x y).modLine x fun l => { l with monitor := unmatched c.guardTime }).Bridged x y c :=
      (hh.handedOver x y).modLine (by intro; rfl) (by intro; rfl) x
    have htake : (s.heard x c fmt e).monitorTake x c e = (((s.heard x c fmt e).failMatch x c).settle x c).passOn x c e := by
      rcases hst with h | ⟨h, hne⟩
      · simp only [State.monitorTake, hm, h]
      · simp only [State.monitorTake, hm, h, not_isEscape hne, Bool.false_eq_true, if_false]
    rw [exec_frameComplete_bridged hs hb hrx he.symm hno, htake, State.failMatch, hb.2.2.2.2.1, hh.handOver_eq, State.settle,
      startedMonitor_eq]
    obtain ⟨-, -, huy, -, hp, -⟩ := hu
    rw [State.passOn_eq_passedOn (by rw [hp]; exact huy) hf, hp]
  case expiry =>
    refine (whileRunning_of_high hs (silenceExpiry x)).trans (congrArg _ ?_)
    rw [silenceExpiry, if_pos ((timerDue_iff _).mpr ht)]
    simp only [hst, hb.2.2.2.1, State.failMatch, hb.2.2.2.2.1, hb.handOver_eq]
    refine State.modLine_congr ?_
    simp only [State.handedOver_line_monitor]
  all_goals
    have hline : ∀ v : State, ((v.modLine x fun l => { l with monitor := { state := .ready, count := 0, silence := none, holding := [] } }).line
        y).tq = (v.line y).tq ∧ ((v.modLine x fun l => { l with monitor := { state := .ready, count := 0, silence := none, holding := [] } }).line
        x).overrun = (v.line x).overrun := fun v =>
      ⟨v.modLine_reads Line.tq (by intro; rfl) x y, v.modLine_reads Line.overrun (by intro; rfl) x x⟩
    rw [(hline _).1, (hline _).2]
    simp only [State.modLine_freeList, State.modLine_host]
    have hstart : ∀ q, (s.modLine x fun l => { l with monitor := { l.monitor with holding := [], count := 0 }, overrun := false }).queue q =
        s.queue q := s.queue_modLine_of_keeps x (by intro; rfl) (by intro; rfl)
    have hroom0 : ((s.modLine x fun l => { l with monitor := { l.monitor with holding := [], count := 0 }, overrun := false }).line
        y).tq.tailRoom = (s.line y).tq.tailRoom := congrArg Queue.tailRoom (hstart (.tq y))
  case whole =>
    obtain ⟨hacc, -, -⟩ := State.acceptedOf_of_room y _ s hroom
    obtain ⟨-, hf, hq⟩ := State.acceptedOf_of_room y (s.line x).monitor.holding (s.modLine x fun l =>
      { l with monitor := { l.monitor with holding := [], count := 0 }, overrun := false }) (by rw [hroom0]; exact hroom)
    rw [(State.handedOver_of_busy hy hacc).2 hne, if_neg (Nat.lt_irrefl _)]
    refine ⟨?_, ?_, hf, State.foldl_stored_host ..⟩
    · have := hq (.tq y)
      rw [if_pos rfl, hstart] at this
      exact this
    · rw [State.foldl_stored_line_overrun, State.line_modLine_same]
  case part =>
    have hacc := State.acceptedOf_take y (s.line x).monitor.holding s (by rw [← hk]; exact hlen) hg
    rw [← hk] at hacc
    have hlent : ((s.line x).monitor.holding.take k).length = k := by rw [List.length_take]; omega
    by_cases hk0 : k = 0
    · subst hk0
      rw [(State.handedOver_of_busy hy hacc).1 rfl hne]
      obtain ⟨htq, ho, hf, hh⟩ := State.overrunOf_reports
        (s.modLine x fun l => { l with monitor := { l.monitor with holding := [], count := 0 } }) x 0x01
      rw [htq, ho, hf, hh, State.line_modLine_same, State.line_modLine_other _ _ hxy.symm, List.take_zero, List.append_nil]
      exact ⟨rfl, rfl, rfl, by simp only [true_and]; rfl⟩
    · have hne' : (s.line x).monitor.holding.take k ≠ [] := by
        intro h; rw [h] at hlent; exact hk0 hlent.symm
      obtain ⟨-, hf, hq⟩ := State.acceptedOf_of_room y ((s.line x).monitor.holding.take k) (s.modLine x fun l =>
        { l with monitor := { l.monitor with holding := [], count := 0 }, overrun := false }) (by rw [hroom0, hlent, hk])
      rw [(State.handedOver_of_busy hy hacc).2 hne', hlent, if_pos hlen]
      obtain ⟨htq, ho, hf', hh⟩ := State.overrunOf_reports (((s.line x).monitor.holding.take k).foldl (fun v e => v.stored y e)
        (s.modLine x fun l => { l with monitor := { l.monitor with holding := [], count := 0 }, overrun := false })) x 0x01
      have hy' := hq (.tq y)
      rw [if_pos rfl, hstart] at hy'
      rw [htq, ho, hf', hh, State.foldl_stored_line_overrun, State.line_modLine_same, State.foldl_stored_host]
      refine ⟨hy', rfl, hf, ?_⟩
      rw [if_neg Bool.false_ne_true, if_neg fun h => hk0 h.1]
      rfl

end Sys2Proof.Machine

/-! PROOF. The Memory Port (O49 to O51, O53 to O55): the commands and ends of a save, what the bus carries, what the writes of a save
leave in the memory, and what a load reads back and installs. -/

namespace Sys2Proof.Machine

set_option Elab.async false

/-! ### The steps of a save -/

theorem allLines_any_iff (p : LineNo → Bool) : allLines.any p = true ↔ ∃ n, p n = true := by
  rw [List.any_eq_true]
  exact ⟨fun ⟨n, _, h⟩ => ⟨n, h⟩, fun ⟨n, h⟩ => ⟨n, mem_allLines n, h⟩⟩

/-- A save's end, as the statements put it (R161). -/
theorem State.endSave_eq (s : State) (outcome : SaveOutcome) : s.endSave outcome = { s with
    port := { s.port with state := .idle, bus := .quiet, snapshot := [], writesMade := 0, pollTimer := none }
    host := postRecord .saveDone 0xFF 0xFF (saveInfo outcome) s.host } := rfl

/-- Settles O49: each command and event by the port's state. -/
theorem reloadAndSaveSteps : Obligations.reload_and_save_steps := by
  rintro s hs finished rfl
  have hreload : exec .reload s = .next (cmdReload s) := whileRunning_of_high hs _
  have hsave : exec .save s = .next (cmdSave s) := whileRunning_of_high hs _
  refine ⟨fun hi => ⟨fun hc => ?loads, fun hc => ?open_, ?saves⟩, fun hb => ?busy, fun hst hw => ⟨?complete, fun b hlen => ?refused⟩,
    fun hst hp => ⟨fun hm => ?next, fun hm => ?last, fun ht => ?expiry⟩⟩
  case loads =>
    have hall : ¬ (allLines.any fun n => (s.line n).state != .closed) = true := by
      rw [allLines_any_iff]; rintro ⟨n, hn⟩; simp [hc n] at hn
    rw [hreload, cmdReload, hi]
    dsimp only
    rw [if_neg hall, State.leave_of_accepted _ .started rfl]
    rfl
  case open_ =>
    have hany : (allLines.any fun n => (s.line n).state != .closed) = true := by
      rw [allLines_any_iff]; obtain ⟨n, hn⟩ := hc; exact ⟨n, by simpa using hn⟩
    rw [hreload, cmdReload, hi]
    dsimp only
    rw [if_pos hany, State.leave_of_refused _ .wrongState rfl]
  case saves =>
    rw [hsave, cmdSave, hi]
    dsimp only
    rw [State.leave_of_accepted _ .started rfl]
    rfl
  case busy =>
    have hbusy : s.leave .memoryBusy = { s with host := { s.host with result := .memoryBusy, cmdRefused := true } } :=
      State.leave_of_refused _ .memoryBusy rfl
    intro c hc
    rcases List.mem_cons.mp hc with rfl | hc
    · rw [hreload, cmdReload, hb, ← hbusy]
    · rw [List.mem_singleton.mp hc, hsave, cmdSave, hb, ← hbusy]
  case complete =>
    refine (whileRunning_of_high hs writeComplete).trans ?_
    rw [writeComplete, if_pos ⟨hst, hw⟩]
    rfl
  case refused =>
    refine (whileRunning_of_high hs (byteRefused b)).trans ?_
    rw [byteRefused, if_pos ⟨hst, hw, by rw [sentBytes_writing hw]; exact hlen⟩, State.endSave_eq]
    by_cases h : s.port.writesMade = 0 ∧ b = 0
    · rw [if_pos h, if_pos h]; rfl
    · rw [if_neg h, if_neg h]; rfl
  case next =>
    refine (whileRunning_of_high hs pollAcknowledge).trans ?_
    rw [pollAcknowledge, if_pos ⟨hst, hp⟩, if_neg (by simp only [Config.saveWrites]; omega)]
    rfl
  case last =>
    refine (whileRunning_of_high hs pollAcknowledge).trans ?_
    rw [pollAcknowledge, if_pos ⟨hst, hp⟩, if_pos (by simp only [Config.saveWrites]; omega)]
    rfl
  case expiry =>
    refine (whileRunning_of_high hs pollExpiry).trans ?_
    rw [pollExpiry, if_pos ⟨hst, hp, (timerDue_iff _).mpr ht⟩]
    rfl

/-! ### The bus (R149) -/

theorem deviceSelect_write (address : Nat) : deviceSelect address false = if address < 256 then 0xA0 else 0xA2 := by
  by_cases h : address < 256
  · rw [if_pos h, deviceSelect, decide_eq_false (by omega)]; rfl
  · rw [if_neg h, deviceSelect, decide_eq_true (by omega)]; rfl

/-- Write k + 1 of a save, in the terms of the count of writes made (R160). -/
theorem saveWrite_succ (snapshot : List Byte) (k : Nat) : saveWrite snapshot (k + 1) =
    if k = 0 then (0x003, [0x00]) else if k = 35 then (0x003, [0xA5]) else (8 * (k - 1), (snapshot.drop (8 * (k - 1))).take 8) := by
  have hsub : k + 1 - 2 = k - 1 := by omega
  simp only [saveWrite, Config.saveWrites, Nat.add_eq_right, Nat.reduceEqDiff, hsub]

/-- The address of write k of a save (R160). -/
theorem saveWrite_address (snapshot : List Byte) (k : Nat) :
    (saveWrite snapshot k).1 = if k = 1 ∨ k = 36 then 0x003 else 8 * (k - 2) := by
  unfold saveWrite
  by_cases h1 : k = 1
  · simp [h1]
  · by_cases h36 : k = 36
    · simp [h36, Config.saveWrites]
    · simp [h1, h36, Config.saveWrites]

theorem saveTransfer_eq (snapshot : List Byte) (k : Nat) : saveTransfer snapshot k =
    [.startCondition, .send (if (saveWrite snapshot k).1 < 256 then 0xA0 else 0xA2), .send (BitVec.ofNat 8 (saveWrite snapshot k).1)] ++
      (saveWrite snapshot k).2.map BusAction.send ++ [.stopCondition] := by
  simp [saveTransfer, saveWriteBytes, deviceSelect_write]

/-- Settles O50: the transfer of each state of the bus. -/
theorem memoryBusTransfers : Obligations.memory_bus_transfers := by
  refine ⟨fun s h => ?rest, fun s hs => ?driven, fun b => ⟨?periods, ?back, fun low => rfl⟩⟩
  case rest =>
    rcases h with h | h <;> simp [State.memoryBus, MemoryPort.driving, h]
  case driven =>
    have hbus : s.memoryBus = s.port.driving := if_neg (by simp [hs])
    refine ⟨fun h => ?reading, fun address data select hsel => ⟨fun h hw => ?writing, fun h hm ha => ?polling⟩⟩
    case reading =>
      rw [hbus, MemoryPort.driving, h]
      rfl
    case writing =>
      rw [← saveWrite_succ s.port.snapshot] at hw
      have haddr : address = (saveWrite s.port.snapshot (s.port.writesMade + 1)).1 := congrArg Prod.fst hw
      have hdata : data = (saveWrite s.port.snapshot (s.port.writesMade + 1)).2 := congrArg Prod.snd hw
      rw [hbus, MemoryPort.driving, h]
      dsimp only
      rw [saveTransfer_eq, hsel, haddr, hdata]
      simp only [List.append_assoc]
      rfl
    case polling =>
      rw [hbus, MemoryPort.driving, h]
      dsimp only
      rw [unansweredPoll, deviceSelect_write, saveWrite_address, ← ha, hsel]
  case periods =>
    rw [BusAction.periods, byteBits]
    simp [List.range_succ]
  case back =>
    have h : (List.range 8).map (fun i => b.getLsbD (7 - i)) = byteBits b := by simp [List.range_succ, byteBits]
    rw [h, byteOfBits_byteBits]

/-! ### The memory behind a save (R160, R162) -/

/-- The bytes of write k + 1 of a save, out of the snapshot. -/
theorem getElem?_chunk (snapshot : List Byte) {j a : Nat} (h : 8 * j ≤ a ∧ a < 8 * j + 8) :
    ((snapshot.drop (8 * j)).take 8)[a - 8 * j]? = snapshot[a]? := by
  rw [List.getElem?_take_of_lt (by omega), List.getElem?_drop]
  congr 1
  omega

/-- After write k of a save, k from 1 to 35: the marker is blank, and the first k - 1 chunks of the snapshot are in place. -/
theorem memoryRead_during_save {snapshot : List Byte} {m : List Host.Cell} {after : Nat → List Host.Cell}
    (hlen : snapshot.length = 272) (h3 : snapshot[3]? = some 0x00) (h0 : after 0 = m)
    (hstep : ∀ k, after (k + 1) = memoryWriteAll (after k) (saveWrite snapshot (k + 1)).1 (saveWrite snapshot (k + 1)).2)
    (k : Nat) (hk : k < 35) (a : Nat) : memoryRead (after (k + 1)) a =
      if a = 3 then some 0x00 else if a < 8 * k then snapshot[a]? else memoryRead m a := by
  induction k generalizing a with
  | zero =>
    rw [hstep, saveWrite_succ, if_pos rfl, memoryRead_writeAll, h0]
    by_cases ha : a = 3
    · subst ha; rfl
    · rw [if_neg (by simp only [List.length_singleton]; omega), if_neg ha, if_neg (by omega)]
  | succ j ih =>
    have hchunk : ((snapshot.drop (8 * j)).take 8).length = 8 := by rw [List.length_take, List.length_drop]; omega
    rw [hstep, saveWrite_succ, if_neg (by omega), if_neg (by omega), memoryRead_writeAll, ih (by omega), Nat.add_sub_cancel, hchunk]
    by_cases ha : 8 * j ≤ a ∧ a < 8 * j + 8
    · rw [if_pos ha, getElem?_chunk snapshot ha]
      by_cases h3a : a = 3
      · rw [if_pos h3a, h3a, h3]
      · rw [if_neg h3a, if_pos (by omega)]
    · rw [if_neg ha]
      by_cases h3a : a = 3
      · rw [if_pos h3a, if_pos h3a]
      · rw [if_neg h3a, if_neg h3a]
        by_cases hlt : a < 8 * j
        · rw [if_pos hlt, if_pos (by omega)]
        · rw [if_neg hlt, if_neg (by omega)]

/-- Settles O51: the writes 1 to 35 by `memoryRead_during_save`, then the marker. -/
theorem saveWritesTheImage : Obligations.save_writes_the_image := by
  intro snapshot m after hlen h3 h0 hstep
  have hduring := memoryRead_during_save hlen h3 h0 hstep
  refine ⟨fun a => ?_, fun k h1 h36 => ?_⟩
  · rw [hstep 35, saveWrite_succ, if_neg (by decide), if_pos rfl, memoryRead_writeAll, hduring 34 (by decide)]
    by_cases ha : a = 3
    · subst ha; rfl
    · rw [if_neg (by simp only [List.length_singleton]; omega), if_neg ha, if_neg ha]
  · obtain ⟨j, rfl⟩ : ∃ j, k = j + 1 := ⟨k - 1, by omega⟩
    rw [hduring j (by omega), if_pos rfl]

end Sys2Proof.Machine

/-! PROOF. What a load reads back and installs (O53 to O55): the bytes of a saved image, the fields judged from them, and the
installation of a good image and of factory settings. -/

namespace Sys2Proof.Machine

set_option Elab.async false

/-! ### The bytes of a saved image (R150, R159) -/

theorem getElem?_flatMap_const {α β : Type} {f : α → List β} {k : Nat} (hk : ∀ x, (f x).length = k) (xs : List α) (n : Nat) {i : Nat}
    (hi : i < k) : (xs.flatMap f)[k * n + i]? = xs[n]?.bind fun x => (f x)[i]? := by
  induction xs generalizing n with
  | nil => simp
  | cons x xs ih =>
    rw [List.flatMap_cons]
    cases n with
    | zero => rw [Nat.mul_zero, Nat.zero_add, List.getElem?_append_left (by rw [hk]; exact hi)]; rfl
    | succ n =>
      rw [List.getElem?_append_right (by rw [hk, Nat.mul_succ]; omega), hk, List.getElem?_cons_succ, ← ih n]
      congr 1
      rw [Nat.mul_succ]
      omega

/-- The line records and the standing records of a saved image, behind its first sixteen bytes. -/
theorem saveImage_getElem?_tail (s : State) (j : Nat) : ((saveImage s).set 3 0xA5)[16 + j]? =
    ((allLines.flatMap fun n => lineImage (s.line n)) ++ allSlots.flatMap fun i => recordImage (s.record i))[j]? := by
  rw [List.getElem?_set_ne (by omega), saveImage, imageBody, List.append_assoc, ← List.append_assoc,
    List.getElem?_append_right (by simp)]
  congr 1
  simp

theorem imageByte_line (s : State) (n : LineNo) {i : Nat} (hi : i < 24) :
    imageByte ((saveImage s).set 3 0xA5) (0x010 + 0x18 * n.val + i) = (lineImage (s.line n)).getD i 0 := by
  have hn : allLines[n.val]? = some n := by revert n; decide
  rw [imageByte, List.getD_eq_getElem?_getD, List.getD_eq_getElem?_getD, Nat.add_assoc, saveImage_getElem?_tail,
    List.getElem?_append_left, getElem?_flatMap_const (fun n => lineImage_length (s.line n)) allLines _ hi, hn, Option.bind_some]
  simp only [List.length_flatMap, lineImage_length]
  have := n.isLt
  simp only [allLines, List.map_cons, List.map_nil, List.sum_cons, List.sum_nil]
  omega

theorem imageByte_record (s : State) (i : SlotNo) {k : Nat} (hk : k < 16) :
    imageByte ((saveImage s).set 3 0xA5) (0x0D0 + 0x10 * i.val + k) = (recordImage (s.record i)).getD k 0 := by
  have hi : allSlots[i.val]? = some i := by revert i; decide
  have hlen : (allLines.flatMap fun n => lineImage (s.line n)).length = 192 := by
    simp [lineImage_length, allLines]
  have hj : 0x0D0 + 0x10 * i.val + k = 16 + (192 + (0x10 * i.val + k)) := by omega
  rw [imageByte, List.getD_eq_getElem?_getD, List.getD_eq_getElem?_getD, hj, saveImage_getElem?_tail,
    List.getElem?_append_right (by omega), hlen, Nat.add_sub_cancel_left,
    getElem?_flatMap_const (fun i => recordImage_length (s.record i)) allSlots _ hk, hi, Option.bind_some]

/-! ### The fields judged (R152) -/

/-- What an image keeps of a line. -/
def Line.saved (l : Line) : LineImage :=
  { settings := l.settings, hold := l.hold, rqReserve := l.rq.reserve, rqLimit := l.rq.limit, tqReserve := l.tq.reserve
    tqLimit := l.tq.limit }

theorem readLineImage_saved {img : List Byte} {l : Line} {n : Nat}
    (h : ∀ i, i < 24 → imageByte img (0x010 + 0x18 * n + i) = (lineImage l).getD i 0) (hs : l.SettingsOk)
    (hr : quotaOk l.rq.reserve l.rq.limit = true) (ht : quotaOk l.tq.reserve l.tq.limit = true) :
    readLineImage img n = some l.saved := by
  obtain ⟨htiming, hcodes, h2, h128, h126, hlow⟩ := hs
  have hformat : formatOf (dataBitsCode l.settings.format.dataBits) (parityCode l.settings.format.parity)
      (stopBitsCode l.settings.format.stopBits) (BitVec.ofNat 8 l.settings.format.rate.val) = some l.settings.format :=
    formatOf_codes ..
  have hhold : holdOf (methodCode l.hold.method) l.hold.pauseCode l.hold.resumeCode l.hold.highMark l.hold.lowMark = some l.hold :=
    holdOf_codes _ hcodes h2 h128 h126 hlow
  unfold readLineImage
  simp only [h, Nat.reduceLT, lineImage, List.getD_cons_zero, List.getD_cons_succ, onOffOf_code, hformat, hhold, hr, ht, htiming]
  rfl

/-- Lines whose reserves stay within the pool are judged good one after another (R152). -/
theorem judgeLines_saved {img : List Byte} (line : LineNo → Line) (hread : ∀ n, readLineImage img n.val = some (line n).saved)
    (ns : List LineNo) (sum : Nat)
    (hsum : sum + (ns.map fun n => (line n).rq.reserve.toNat + (line n).tq.reserve.toNat).sum ≤ 128) :
    judgeLines img (ns.map Fin.val) sum = .ok (ns.map fun n => (line n).saved) := by
  induction ns generalizing sum with
  | nil => rfl
  | cons n ns ih =>
    rw [List.map_cons, List.sum_cons] at hsum
    rw [List.map_cons, judgeLines, hread]
    dsimp only [Line.saved] at ih ⊢
    rw [if_neg (by omega), ih _ (by omega)]
    rfl

/-- A standing record as an image keeps it (R159). -/
def StandingRecord.saved : StandingRecord → StandingRecord
  | .empty => .empty
  | .idle c => .idle { c with armAtStart := false }
  | .armed c => if c.armAtStart then .armed c else .idle c
  | .active c => if c.armAtStart then .armed c else .idle c

theorem savedFlags (a b : Bool) (k : BreakAction) :
    (bitAt 0 a ||| bitAt 1 b ||| bitAt 2 (k == .release)) &&& 0xF8 = 0 ∧
      (bitAt 0 a ||| bitAt 1 b ||| bitAt 2 (k == .release)).getLsbD 0 = a ∧
      (bitAt 0 a ||| bitAt 1 b ||| bitAt 2 (k == .release)).getLsbD 1 = b ∧
      breakActionOf ((bitAt 0 a ||| bitAt 1 b ||| bitAt 2 (k == .release)).getLsbD 2) = k := by
  cases a <;> cases b <;> cases k <;> decide

/-- Contents behind a start state of 1 or 2, read back (R150, R152). -/
theorem readRecordImage_contents {img : List Byte} {i : Nat} {c : Contents} (v : Byte) (hv : v = 1 ∨ v = 2)
    (h : ∀ k, k < 16 → imageByte img (0x0D0 + 0x10 * i + k) = (v :: contentsImage c).getD k 0) (hc : c.Ok) :
    readRecordImage img i =
      some (if v = 2 then .armed { c with armAtStart := true } else .idle { c with armAtStart := false }) := by
  obtain ⟨hab, hprofile⟩ := hc
  obtain ⟨hflags, h0, h1, h2⟩ := savedFlags c.monitorA c.monitorB c.breakAction
  unfold readRecordImage
  simp only [h, Nat.reduceLT, contentsImage, List.getD_cons_zero, List.getD_cons_succ, lineOfByte_lineByte, hprofile, hflags, h0, h1, h2]
  rcases hv with rfl | rfl
  · rw [if_neg (by decide), if_pos ⟨hab, by decide, trivial, trivial⟩]
    rfl
  · rw [if_neg (by decide), if_pos ⟨hab, by decide, trivial, trivial⟩]
    rfl

theorem readRecordImage_saved {img : List Byte} {r : StandingRecord} {i : Nat}
    (h : ∀ k, k < 16 → imageByte img (0x0D0 + 0x10 * i + k) = (recordImage r).getD k 0) (hr : RecordOk r) :
    readRecordImage img i = some r.saved := by
  have hstart : ∀ c : Contents, c.Ok → (∀ k, k < 16 → imageByte img (0x0D0 + 0x10 * i + k) = (startState c :: contentsImage c).getD k 0) →
      readRecordImage img i = some (if c.armAtStart then .armed c else .idle c) := by
    intro c hc hk
    rw [readRecordImage_contents _ (by unfold startState; split <;> simp) hk hc, startState]
    cases harm : c.armAtStart with
    | true => exact congrArg (fun b => some (StandingRecord.armed { c with armAtStart := b })) harm.symm
    | false => exact congrArg (fun b => some (StandingRecord.idle { c with armAtStart := b })) harm.symm
  cases r with
  | empty =>
    have h0 : imageByte img (0x0D0 + 0x10 * i + 0) = 0 := h 0 (by decide)
    rw [readRecordImage]
    exact if_pos h0
  | idle c => exact readRecordImage_contents 1 (.inl rfl) h hr
  | armed c => exact hstart c hr h
  | active c => exact hstart c hr h

/-- Records that name no line twice are judged good one after another (R152). -/
theorem judgeRecords_saved {img : List Byte} (record : SlotNo → StandingRecord) (hread : ∀ i, readRecordImage img i.val = some (record i))
    (huniq : ∀ i j n, n ∈ armedLines (record i) → n ∈ armedLines (record j) → i = j) (is : List SlotNo) (his : is.Nodup)
    (named : List LineNo) (hnamed : ∀ i ∈ is, ∀ n ∈ armedLines (record i), n ∉ named) :
    judgeRecords img (is.map Fin.val) named = .ok (is.map record) := by
  induction is generalizing named with
  | nil => rfl
  | cons i is ih =>
    obtain ⟨hi, his⟩ := List.nodup_cons.mp his
    have hfree : ((armedLines (record i)).any fun n => named.contains n) = false := by
      rw [List.any_eq_false]
      intro n hn
      simpa using hnamed i List.mem_cons_self n hn
    have hrest := ih his (named ++ armedLines (record i)) fun j hj n hn => by
      rw [List.mem_append, not_or]
      exact ⟨hnamed j (List.mem_cons_of_mem _ hj) n hn, fun h => hi (huniq i j n h hn ▸ hj)⟩
    rw [List.map_cons, judgeRecords, hread]
    dsimp only
    rw [hfree, if_neg Bool.false_ne_true, hrest]
    rfl

/-- A line that a saved record arms is one that the record reserves (R139, R159). -/
theorem reserves_of_mem_armedLines_saved {r : StandingRecord} {n : LineNo} (h : n ∈ armedLines r.saved) : reserves r n = true := by
  have hc : ∀ c : Contents, n ∈ armedLines (if c.armAtStart then .armed c else .idle c) → c.lineA = n ∨ c.lineB = n := by
    intro c hn
    split at hn
    · simpa [armedLines, eq_comm] using hn
    · simp [armedLines] at hn
  cases r with
  | empty => simp [StandingRecord.saved, armedLines] at h
  | idle c => simp [StandingRecord.saved, armedLines] at h
  | armed c => exact reserves_armed.mpr (hc c h)
  | active c =>
    obtain hn | hn := hc c h <;> simp [reserves, reservedLines, hn]

theorem sum_reserves (s : State) :
    (allLines.map fun n => (s.line n).rq.reserve.toNat + (s.line n).tq.reserve.toNat).sum = s.reserveTotal := by
  simp only [State.reserveTotal, allLines, allQueues, State.queue, List.map_cons, List.map_nil, List.sum_cons, List.sum_nil]
  omega

/-- Settles O53: the image is whole, and each of its fields is read back. -/
theorem savedImageLoadsBack : Obligations.saved_image_loads_back := by
  rintro s ⟨hlines, hlimit, hrecords⟩ ⟨hquota, hreserve, -⟩ huniq
  set img := (saveImage s).set 3 0xA5 with himg
  have hlen : img.length = 272 := by rw [himg, List.length_set, saveImage_length]
  have hmarked : imageMarked img = true := rfl
  have hsums : imageSums img = true := by
    have hsum := byteSum_sub_imageByte (img := saveImage s) (i := 3) (by rw [saveImage_length]; decide)
    rw [byteSum_saveImage] at hsum
    rw [imageSums_iff hlen, ← byteSum_eq_zero_iff, himg, List.take_set_of_le (by decide), List.drop_set_of_lt (by decide), ← hsum,
      show imageByte (saveImage s) 3 = 0 from rfl]
    rfl
  have hjudged : judgeFields img = .ok { drainLimit := s.drainLimit, lines := allLines.map fun n => (s.line n).saved
                                         records := allSlots.map fun i => (s.record i).saved } := by
    have h5 : imageByte img 0x005 = s.drainLimit := rfl
    have hl : judgeLines img [0, 1, 2, 3, 4, 5, 6, 7] 0 = .ok (allLines.map fun n => (s.line n).saved) :=
      judgeLines_saved s.line (fun n => readLineImage_saved (fun i hi => imageByte_line s n hi) (hlines n) (hquota n).1 (hquota n).2)
        allLines 0 (by rw [sum_reserves]; simpa [Config.cellCount] using hreserve)
    have hr : judgeRecords img [0, 1, 2, 3] [] = .ok (allSlots.map fun i => (s.record i).saved) :=
      judgeRecords_saved (fun i => (s.record i).saved)
        (fun i => readRecordImage_saved (fun k hk => imageByte_record s i hk) (hrecords i))
        (fun i j n hi hj => huniq i j n (reserves_of_mem_armedLines_saved hi) (reserves_of_mem_armedLines_saved hj)) allSlots (by decide)
        [] fun _ _ _ _ => List.not_mem_nil
    rw [judgeFields, h5, if_neg hlimit, hl, hr]
  rw [judgeImage, hmarked, hsums, hjudged]
  refine congrArg (fun rs => Except.ok (GoodImage.mk s.drainLimit (allLines.map fun n => (s.line n).saved) (allSlots.map rs))) ?_
  funext i
  cases s.record i <;> rfl

/-! ### Loads (R154 to R156) -/

theorem State.lines_get (s : State) (n : LineNo) : s.lines.get n = s.line n := rfl

theorem State.standing_ext {s t : State} (h : ∀ i, s.record i = t.record i) : s.standing = t.standing := by
  apply Vector.ext
  intro i hi
  simpa [State.record, Vector.get_eq_getElem] using h ⟨i, hi⟩

/-- The failure step of a load, in one update of the state (R156). -/
theorem State.loadFailed_eq (s : State) (outcome : LoadOutcome) (index : Byte) : s.loadFailed outcome index = { s with
    lines := Vector.ofFn fun n => installLine factoryLineImage (s.line n)
    drainLimit := 50, standing := Vector.replicate 4 .empty
    port := { s.port with state := .idle, bus := .quiet }
    host := postRecord .loadDone 0xFF index (loadInfo outcome) s.host } := by
  refine State.ext_lines (fun n => ?_) rfl rfl rfl rfl rfl rfl rfl rfl rfl
  refine (State.line_forLines_modLine (fun _ => installLine factoryLineImage) s n).trans ?_
  simp [State.line, Vector.get_eq_getElem]

theorem loadInfo_eq (o : LoadOutcome) : loadInfo o = (match o with
    | .ok => 0x00 | .noMemory => 0x01 | .blank => 0x02 | .badChecksum => 0x03 | .badRecord => 0x04) := by
  cases o <;> rfl

/-- The image that a read brings is what the statements call the buffer (R162). -/
theorem readImage_eq {m : List Host.Cell} {before buffer : List Byte} (hb : before.length = 272) (hl : buffer.length = 272)
    (h : ∀ a, a < 272 → buffer[a]? = (memoryRead m a).or before[a]?) : readImage m before = buffer := by
  apply List.ext_getElem?
  intro a
  by_cases ha : a < 272
  · rw [readImage_getElem? m before a ha hb, h a ha]
  · rw [List.getElem?_eq_none (by rw [readImage_length]; exact Nat.not_lt.mp ha), List.getElem?_eq_none (by omega)]

section
variable {s : State} (hs : s.resetLow = false) (hp : s.port.state = .loading) {before : List Byte}
include hs hp

theorem exec_imageReadDone_of_error {o : LoadOutcome} {index : Byte} (h : judgeImage (readImage s.memory before) = .error (o, index)) :
    exec (.imageReadDone (.finished before)) s =
      .next ((s.modPort fun p => { p with loadBuffer := readImage s.memory before }).loadFailed o index) := by
  refine (whileRunning_of_high hs (imageReadEnd (.finished before))).trans (congrArg _ ?_)
  rw [imageReadEnd, if_pos (State.isLoading_eq_true hp)]
  dsimp only
  rw [h]

theorem exec_imageReadDone_of_ok {g : GoodImage} (h : judgeImage (readImage s.memory before) = .ok g) :
    exec (.imageReadDone (.finished before)) s =
      .next ((s.modPort fun p => { p with loadBuffer := readImage s.memory before }).install g) := by
  refine (whileRunning_of_high hs (imageReadEnd (.finished before))).trans (congrArg _ ?_)
  rw [imageReadEnd, if_pos (State.isLoading_eq_true hp)]
  dsimp only
  rw [h]
end

/-- Settles O54: every outcome but a good image takes the failure step. -/
theorem failedLoadLeavesFactorySettings : Obligations.failed_load_leaves_factory_settings := by
  rintro s hs hp how outcome index buffer (⟨k, rfl, rfl, rfl, rfl⟩ | ⟨before, rfl, hb, hl, hbuffer, hverdict⟩)
  · refine (whileRunning_of_high hs (imageReadEnd (.notAcknowledged k))).trans ?_
    rw [imageReadEnd, if_pos (State.isLoading_eq_true hp)]
    dsimp only
    rw [State.loadFailed_eq]
    rfl
  · have hread := readImage_eq hb hl hbuffer
    have hjudged : ∃ o, judgeImage buffer = .error (o, index) ∧ outcome = loadInfo o := by
      rcases hverdict with ⟨h3, rfl, rfl⟩ | ⟨o, ho, rfl⟩
      · exact ⟨.blank, imageIsWhole.1 buffer hl |>.2 (by rw [hbuffer 3 (by decide), h3]; rfl), rfl⟩
      · exact ⟨o, ho, (loadInfo_eq o).symm ▸ by cases o <;> rfl⟩
    obtain ⟨o, ho, rfl⟩ := hjudged
    rw [exec_imageReadDone_of_error hs hp (by rw [hread]; exact ho), hread, State.loadFailed_eq]
    rfl

/-! ### The installation (R155) -/

theorem State.bridge_line_other {s : State} {x y m : LineNo} (hx : m ≠ x) (hy : m ≠ y) : (s.bridge x y).line m = s.line m := by
  simp only [State.bridge, State.startMonitor, State.holdEval_eq, State.line_modLine_other _ _ hx, State.line_modLine_other _ _ hy]

/-- An establishment changes no line that was not HOST (R140). -/
theorem State.evaluateSlot_line {s : State} {m : LineNo} (i : SlotNo) (h : (s.line m).state ≠ .host) :
    (s.evaluateSlot i).line m = s.line m := by
  unfold State.evaluateSlot
  split
  · next c hc =>
    split
    · next he =>
      have hcond := (State.establishable_iff s c).mp he
      have ha : m ≠ c.lineA := fun e => h (e ▸ (hcond _ (.inl rfl)).1)
      have hb : m ≠ c.lineB := fun e => h (e ▸ (hcond _ (.inr rfl)).1)
      rw [State.establish, State.post_line, State.setRecord_line, State.bridge_line_other ha hb, State.line_modLine_other _ _ hb,
        State.line_modLine_other _ _ ha]
    · rfl
  all_goals rfl

theorem State.evaluateLine_line {s : State} {m : LineNo} (n : LineNo) (h : (s.line m).state ≠ .host) :
    (s.evaluateLine n).line m = s.line m := by
  refine List.foldlRecOn (motive := fun t : State => t.line m = s.line m) allSlots _ rfl fun t ht i _ => ?_
  split
  · rw [State.evaluateSlot_line i (by rw [ht]; exact h), ht]
  · exact ht

/-- While no line is HOST no record is established. -/
theorem State.evaluateSlot_of_no_host {s : State} (h : ∀ n, (s.line n).state ≠ .host) (i : SlotNo) : s.evaluateSlot i = s := by
  unfold State.evaluateSlot
  split
  · next c hc =>
    rw [if_neg]
    rw [State.establishable_iff]
    exact fun hcond => h _ (hcond _ (.inl rfl)).1
  all_goals rfl

theorem State.foldl_evaluateSlot_of_no_host {s : State} (h : ∀ n, (s.line n).state ≠ .host) :
    allSlots.foldl (fun w i => w.evaluateSlot i) s = s :=
  List.foldlRecOn (motive := fun t : State => t = s) allSlots _ rfl
    fun t ht i _ => by rw [ht]; exact State.evaluateSlot_of_no_host h i

theorem State.foldl_setRecord_record (s : State) (r : SlotNo → StandingRecord) (j : SlotNo) :
    (allSlots.foldl (fun w i => w.setRecord i (r i)) s).record j = r j := by
  obtain rfl | rfl | rfl | rfl : j = 0 ∨ j = 1 ∨ j = 2 ∨ j = 3 := (by decide : ∀ j : SlotNo, j = 0 ∨ j = 1 ∨ j = 2 ∨ j = 3) j <;>
    simp [allSlots, State.record_setRecord]

/-- Steps 1 to 7 of the installation with every line CLOSED: settings, records and LOAD_DONE, and nothing established (R155). -/
theorem State.installSettings_eq {s : State} (g : GoodImage) (hc : ∀ n, (s.line n).state = .closed) : s.installSettings g = { s with
    lines := Vector.ofFn fun n => installLine (g.line n) (s.line n), drainLimit := g.drainLimit, standing := Vector.ofFn g.record } := by
  have hlines : ∀ n, (forLines (fun n u => u.modLine n (installLine (g.line n))) s).line n = installLine (g.line n) (s.line n) :=
    State.line_forLines_modLine (fun n => installLine (g.line n)) s
  unfold State.installSettings
  dsimp only
  rw [State.foldl_evaluateSlot_of_no_host]
  · refine State.ext_lines (fun n => ?_) rfl rfl (State.standing_ext fun i => ?_) rfl rfl rfl rfl rfl rfl
    · refine (hlines n).trans ?_
      simp [State.line, Vector.get_eq_getElem]
    · rw [State.foldl_setRecord_record]
      simp [State.record, Vector.get_eq_getElem]
  · intro n
    have hn : ((forLines (fun n u => u.modLine n (installLine (g.line n))) s).line n).state = .closed := by
      rw [hlines]; exact hc n
    have heq : ∀ u : State, ((allSlots.foldl (fun w i => w.setRecord i (g.record i)) u).line n) = u.line n := fun _ => rfl
    rw [heq]
    exact fun hh => LineState.noConfusion (hn.symm.trans hh)

/-- The openings of the first k lines. -/
def State.openedTo (s : State) (k : Nat) : State := (allLines.take k).foldl (fun t n => t.openAtStart n) s

theorem State.openedTo_succ (s : State) (n : LineNo) : s.openedTo (n.val + 1) = (s.openedTo n.val).openAtStart n := by
  have h : allLines.take (n.val + 1) = allLines.take n.val ++ [n] := by revert n; decide
  rw [State.openedTo, h, List.foldl_append]
  rfl

theorem State.openAtStart_line {s : State} {n m : LineNo} (hm : m ≠ n) (h : (s.line m).state = .closed) :
    (s.openAtStart n).line m = s.line m := by
  unfold State.openAtStart
  split
  · rw [State.openLine, State.evaluateLine_line _ (by rw [State.line_modLine_other _ _ hm, h]; decide), State.line_modLine_other _ _ hm]
  · rfl

/-- Openings leave the CLOSED lines behind them as they are. -/
theorem State.openedTo_line {s : State} (hc : ∀ n, (s.line n).state = .closed) (k : Nat) (hk : k ≤ 8) (m : LineNo) (hm : k ≤ m.val) :
    (s.openedTo k).line m = s.line m := by
  induction k with
  | zero => rfl
  | succ k ih =>
    have hprev := ih (by omega) (by omega)
    rw [State.openedTo_succ s ⟨k, by omega⟩, State.openAtStart_line (fun h => by simp [h] at hm) (by rw [hprev]; exact hc m), hprev]

/-- Settles O55: the installation with every line CLOSED, then the openings in ascending order. -/
theorem goodImageIsInstalled : Obligations.good_image_is_installed := by
  intro s before loaded g hs hp hc hb hl hloaded hg
  have hread := readImage_eq hb hl hloaded
  set t0 : State := ((({ s with port := { s.port with loadBuffer := loaded } } : State).installSettings g).modPort MemoryPort.rest).post
    .loadDone noLine noLine (loadInfo .ok) with ht0
  have hinstalled := State.installSettings_eq (s := { s with port := { s.port with loadBuffer := loaded } }) g hc
  have hline : ∀ n, t0.line n = installLine (g.line n) (s.line n) := by
    intro n
    rw [ht0, hinstalled, State.post_line, State.modPort_line]
    simp [State.line, Vector.get_eq_getElem]
  have hclosed : ∀ n, (t0.line n).state = .closed := fun n => by rw [hline]; exact hc n
  refine ⟨t0.openedTo, t0.openedTo 8, ?_, ?_, fun n => ?_, rfl⟩
  · rw [exec_imageReadDone_of_ok hs hp (by rw [hread]; exact hg), hread]
    rfl
  · rw [show t0.openedTo 0 = t0 from rfl, ht0, hinstalled]
    rfl
  · have hn : (t0.openedTo n.val).line n = installLine (g.line n) (s.line n) :=
      (State.openedTo_line hclosed n.val (by omega) n (Nat.le_refl _)).trans (hline n)
    rw [State.openedTo_succ, State.openAtStart, hn]
    by_cases ho : (g.line n).settings.openAtStart = true
    · rw [if_pos ho, if_pos ⟨ho, hc n⟩]
      exact State.evaluateLine_evaluated _ n
    · rw [if_neg ho, if_neg fun h => ho h.1]

end Sys2Proof.Machine

/-! PROOF. What every step keeps of the Queue Store, the event queue, the settings and the external memory (O3 to O5): `State.Moved` says
it of a change of the state, each shared operation is such a change, and so is each command and event but for the settings that it
checks and installs. -/

namespace Sys2Proof.Machine

set_option Elab.async false

/-! ### Changes that keep the laws of the store, the events and the settings -/

/-- What a change of the state keeps of the laws that no other law is needed for. -/
structure State.Kept (s t : State) : Prop where
  pool : s.PoolLaw → t.PoolLaw
  queue : s.QueueLaw → t.QueueLaw
  event : s.host.EventLaw → t.host.EventLaw
  seq : s.host.SeqLaw → t.host.SeqLaw
  settings : s.SettingsLaw → t.SettingsLaw
  memory : memoryWf s.memory = true → memoryWf t.memory = true
  enable : s.host.irqEnable &&& 0xF8 = 0 → t.host.irqEnable &&& 0xF8 = 0

/-- A change of the state that keeps the quota law too. -/
structure State.Moved (s t : State) : Prop extends State.Kept s t where
  quota : s.QuotaLaw → t.QuotaLaw

theorem State.Kept.trans {s t u : State} (h : s.Kept t) (k : t.Kept u) : s.Kept u where
  pool := k.pool ∘ h.pool
  queue := k.queue ∘ h.queue
  event := k.event ∘ h.event
  seq := k.seq ∘ h.seq
  settings := k.settings ∘ h.settings
  memory := k.memory ∘ h.memory
  enable := k.enable ∘ h.enable

theorem State.Moved.trans {s t u : State} (h : s.Moved t) (k : t.Moved u) : s.Moved u where
  toKept := h.toKept.trans k.toKept
  quota := k.quota ∘ h.quota

/-- The settings of a line and of its Hold Logic. -/
def Line.setup (l : Line) : LineSettings × HoldSettings := (l.settings, l.hold)

theorem Line.settingsOk_congr {l m : Line} (h : l.setup = m.setup) : l.SettingsOk ↔ m.SettingsOk := by
  obtain ⟨hs, hh⟩ := Prod.mk.inj h
  simp only [Line.SettingsOk, hs, hh]

/-- The cells of a queue and what is in them. -/
def Queue.cells (v : Queue) : List Nat × Nat × List Entry := (v.chain, v.headPos, v.entries)

theorem Queue.shape_congr {v w : Queue} (h : v.cells = w.cells) : v.Shape ↔ w.Shape := by
  obtain ⟨hc, hrest⟩ := Prod.mk.inj h
  obtain ⟨hp, he⟩ := Prod.mk.inj hrest
  simp only [Queue.Shape, Queue.held, Queue.occupancy, hc, hp, he]

/-- A change that moves no cell and no entry keeps what its other parts keep. -/
theorem State.Kept.of_parts {s t : State} (hq : ∀ q, (t.queue q).cells = (s.queue q).cells) (hf : t.freeList = s.freeList)
    (hl : ∀ n, (s.line n).SettingsOk → (t.line n).SettingsOk) (hd : s.drainLimit ≠ 0 → t.drainLimit ≠ 0)
    (hm : memoryWf s.memory = true → memoryWf t.memory = true)
    (hr : (∀ i, RecordOk (s.record i)) → ∀ i, RecordOk (t.record i)) (he : s.host.EventLaw → t.host.EventLaw)
    (hn : s.host.SeqLaw → t.host.SeqLaw) (hi : s.host.irqEnable &&& 0xF8 = 0 → t.host.irqEnable &&& 0xF8 = 0) : s.Kept t where
  pool h := by
    have hchain : ∀ q, (t.queue q).chain = (s.queue q).chain := fun q => (Prod.mk.inj (hq q)).1
    simpa only [State.PoolLaw, hchain, hf] using h
  queue h := by
    rw [State.queueLaw_iff] at h ⊢
    exact fun q => (Queue.shape_congr (hq q)).mpr (h q)
  event := he
  seq := hn
  settings h := by
    obtain ⟨hlines, hlimit, hrecords⟩ := h
    exact ⟨fun n => hl n (hlines n), hd hlimit, hr hrecords⟩
  memory := hm
  enable := hi

/-- A change that leaves the queues and the free list keeps the quota law too. -/
theorem State.Moved.of_parts {s t : State} (hq : ∀ q, t.queue q = s.queue q) (hf : t.freeList = s.freeList)
    (hl : ∀ n, (s.line n).SettingsOk → (t.line n).SettingsOk) (hd : s.drainLimit ≠ 0 → t.drainLimit ≠ 0)
    (hm : memoryWf s.memory = true → memoryWf t.memory = true)
    (hr : (∀ i, RecordOk (s.record i)) → ∀ i, RecordOk (t.record i)) (he : s.host.EventLaw → t.host.EventLaw)
    (hn : s.host.SeqLaw → t.host.SeqLaw) (hi : s.host.irqEnable &&& 0xF8 = 0 → t.host.irqEnable &&& 0xF8 = 0) : s.Moved t where
  toKept := .of_parts (fun q => congrArg _ (hq q)) hf hl hd hm hr he hn hi
  quota h := by
    rw [State.quotaLaw_iff] at h ⊢
    simpa only [hq, State.reserveTotal, State.unmetTotal, State.freeCount, hf] using h

theorem State.Moved.refl (s : State) : s.Moved s := .of_parts (fun _ => rfl) rfl (fun _ => id) id id id id id id

/-- A change of a line that leaves its queues and brings settings in range. -/
theorem State.Moved.modLine_settings (s : State) (n : LineNo) {f : Line → Line} (hr : ∀ l, (f l).rq = l.rq) (ht : ∀ l, (f l).tq = l.tq)
    (hs : (s.line n).SettingsOk → (f (s.line n)).SettingsOk) : s.Moved (s.modLine n f) := by
  refine .of_parts (fun q => s.queue_modLine_of_keeps n hr ht q) rfl (fun m => ?_) id id id id id id
  rw [State.line_modLine]
  split
  · next h => exact h ▸ hs
  · exact id

/-- A change of a line that leaves its queues and settings. -/
theorem State.Moved.modLine (s : State) (n : LineNo) {f : Line → Line} (hr : ∀ l, (f l).rq = l.rq) (ht : ∀ l, (f l).tq = l.tq)
    (hs : ∀ l, (f l).setup = l.setup) : s.Moved (s.modLine n f) :=
  .modLine_settings s n hr ht (Line.settingsOk_congr (hs _)).mpr

/-- A change of the Host Port that posts nothing. -/
theorem State.Moved.modHost (s : State) {f : HostPort → HostPort} (he : (f s.host).events = s.host.events)
    (hn : (f s.host).nextSeq = s.host.nextSeq) (hi : s.host.irqEnable &&& 0xF8 = 0 → (f s.host).irqEnable &&& 0xF8 = 0) :
    s.Moved (s.modHost f) :=
  .of_parts (fun q => by cases q <;> rfl) rfl (fun _ => id) id id id
    (fun h => by simpa only [HostPort.EventLaw, State.modHost_host, he] using h)
    (fun h => by simpa only [HostPort.SeqLaw, State.modHost_host, he, hn] using h) hi

theorem State.Moved.leave (s : State) (r : Result) : s.Moved (s.leave r) := .modHost s rfl rfl id

theorem State.Moved.post (s : State) (k : EventKind) (a b v : Byte) : s.Moved (s.post k a b v) := by
  refine .of_parts (fun q => by cases q <;> rfl) rfl (fun _ => id) id id id (fun h => h.post k a b v) (fun h => h.post k a b v) fun h => ?_
  obtain ⟨es, j, hp⟩ := postRecord_frame k a b v s.host
  rw [State.post_host, hp]
  exact h

theorem State.Moved.setRecord (s : State) (i : SlotNo) (r : StandingRecord) (h : RecordOk (s.record i) → RecordOk r) :
    s.Moved (s.setRecord i r) := by
  refine .of_parts (fun q => by cases q <;> rfl) rfl (fun _ => id) id id (fun hs j => ?_) id id id
  rw [State.record_setRecord]
  split
  · exact h (hs i)
  · exact hs j

theorem State.Moved.modPort (s : State) (f : MemoryPort → MemoryPort) : s.Moved (s.modPort f) :=
  .of_parts (fun q => by cases q <;> rfl) rfl (fun _ => id) id id id id id id

/-- One queue stored anew. -/
theorem State.Restored.moved {s t : State} {q : QueueId} (h : s.Restored t q) : s.Moved t := by
  obtain ⟨free, v, rfl, -⟩ := h.eq
  have hl : ∀ n, (((s.withFree free).setQueue q v).line n).setup = (s.line n).setup := by
    intro n
    cases q with
    | rq m => exact (s.withFree free).modLine_reads Line.setup (by intro; rfl) m n
    | tq m => exact (s.withFree free).modLine_reads Line.setup (by intro; rfl) m n
  have hrec : ∀ i, ((s.withFree free).setQueue q v).record i = s.record i := fun i => by
    rw [State.record, State.setQueue_standing]; rfl
  refine ⟨⟨h.poolLaw, h.queueLaw, fun he => ?_, fun hn => ?_, fun hs => ?_, fun hm => ?_, fun hi => ?_⟩, h.quotaLaw⟩
  · rw [State.setQueue_host]; exact he
  · rw [State.setQueue_host]; exact hn
  · obtain ⟨hlines, hlimit, hrecords⟩ := hs
    exact ⟨fun n => (Line.settingsOk_congr (hl n)).mpr (hlines n), by rw [State.setQueue_drainLimit]; exact hlimit,
      fun i => by rw [hrec]; exact hrecords i⟩
  · rw [State.setQueue_memory]; exact hm
  · rw [State.setQueue_host]; exact hi

theorem State.Moved.ite {s t u : State} {p : Prop} [Decidable p] (ht : p → s.Moved t) (hu : ¬ p → s.Moved u) :
    s.Moved (if p then t else u) := by
  split
  · next h => exact ht h
  · next h => exact hu h

/-! ### The shared operations -/

section
variable (s : State)

theorem State.moved_append {t : State} {q : QueueId} {e : Entry} (h : s.append q e = some t) : s.Moved t :=
  (State.append_restored h).moved

theorem State.moved_discard (q : QueueId) : s.Moved (s.discard q) := (s.discard_restored q).moved

theorem State.moved_holdEval (x : LineNo) : s.Moved (s.holdEval x) := by
  rw [State.holdEval_eq]
  exact .modLine s x (fun l => l.afterOccupancy_rq _) (fun l => l.afterOccupancy_tq _) fun l => by simp [Line.setup]

theorem State.moved_tellHold (q : QueueId) : s.Moved (s.tellHold q) := by
  unfold State.tellHold
  split
  · exact s.moved_holdEval _
  · exact .refl s

theorem State.moved_startMonitor (x : LineNo) : s.Moved (s.startMonitor x) :=
  .modLine s x (fun _ => rfl) (fun _ => rfl) fun _ => rfl

theorem State.moved_bridge (x y : LineNo) : s.Moved (s.bridge x y) := by
  unfold State.bridge
  have hx := State.Moved.modLine s x (f := fun l => { l with state := .bridged, idleTimer := idleStart l }) (fun _ => rfl) (fun _ => rfl)
    fun _ => rfl
  have hy := State.Moved.modLine (s.modLine x fun l => { l with state := .bridged, idleTimer := idleStart l }) y
    (f := fun l => { l with state := .bridged }) (fun _ => rfl) (fun _ => rfl) fun _ => rfl
  exact (((hx.trans hy).trans (State.moved_holdEval _ x)).trans (State.moved_holdEval _ y)).trans
    ((State.moved_startMonitor _ x).trans (State.moved_startMonitor _ y))

/-- An establishment leaves every record but its own as it is. -/
theorem State.moved_establish {i : SlotNo} {c : Contents} (h : s.record i = .armed c) : s.Moved (s.establish i c) := by
  unfold State.establish
  set u := (s.modLine c.lineA fun l => { l with conn := some (standingPart c i .caller) }).modLine c.lineB fun l =>
    { l with conn := some (standingPart c i .called) } with hu
  have hparts : s.Moved u := (State.Moved.modLine s c.lineA (by intro; rfl) (by intro; rfl) (by intro; rfl)).trans
    (State.Moved.modLine _ c.lineB (by intro; rfl) (by intro; rfl) (by intro; rfl))
  have hrecord : (u.bridge c.lineA c.lineB).record i = .armed c := by
    rw [State.bridge]
    simp only [State.holdEval_eq]
    exact h
  refine ((hparts.trans (u.moved_bridge _ _)).trans (State.Moved.setRecord _ i _ ?_)).trans (State.Moved.post _ _ _ _ _)
  rw [hrecord]
  exact id

theorem State.moved_evaluateSlot (i : SlotNo) : s.Moved (s.evaluateSlot i) := by
  unfold State.evaluateSlot
  split
  · next c h => exact .ite (fun _ => s.moved_establish h) fun _ => .refl s
  all_goals exact .refl s

theorem State.moved_evaluateLine (n : LineNo) : s.Moved (s.evaluateLine n) :=
  List.foldlRecOn (motive := fun t : State => s.Moved t) allSlots _ (.refl s) fun t ht i _ =>
    .ite (fun _ => ht.trans (t.moved_evaluateSlot i)) fun _ => ht

theorem State.moved_openLine (n : LineNo) : s.Moved (s.openLine n) :=
  (State.Moved.modLine s n (by intro; rfl) (by intro; rfl) (by intro; rfl)).trans (State.moved_evaluateLine _ n)

theorem State.moved_returnToHost (n : LineNo) : s.Moved (s.returnToHost n) :=
  (((State.Moved.modLine s n (by intro; rfl) (by intro; rfl) (by intro; rfl)).trans (.post _ _ _ _ _)).trans
    (.modLine _ n (by intro; rfl) (by intro; rfl) (by intro; rfl))).trans (State.moved_evaluateLine _ n)

theorem State.moved_drainCheck (n : LineNo) : s.Moved (s.drainCheck n) := .ite (fun _ => s.moved_returnToHost n) fun _ => .refl s

theorem State.moved_tqEmptied (n : LineNo) : s.Moved (s.tqEmptied n) := (s.moved_drainCheck n).trans (State.moved_evaluateLine _ n)

theorem State.moved_answer (x y : LineNo) : s.Moved (s.answer x y) :=
  ((State.Moved.modLine s x (by intro; rfl) (by intro; rfl) (by intro; rfl)).trans (State.moved_bridge _ x y)).trans (.post _ _ _ _ _)

theorem State.moved_failCall (x y : LineNo) (r : FailReason) : s.Moved (s.failCall x y r) := by
  have hleft := ((State.Moved.modLine s x (f := Line.leaveCall) (fun _ => rfl) (fun _ => rfl) fun _ => rfl).trans
    (.modLine _ y (f := Line.leaveCall) (fun _ => rfl) (fun _ => rfl) fun _ => rfl)).trans
    (.post _ .callFailed (lineByte x) (lineByte y) (failInfo r))
  exact .ite (fun _ => (hleft.trans (State.moved_evaluateLine _ y)).trans (State.moved_evaluateLine _ x))
    fun _ => (hleft.trans (State.moved_evaluateLine _ x)).trans (State.moved_evaluateLine _ y)

theorem State.moved_endCall (x : LineNo) (r : FailReason) : s.Moved (s.endCall x r) := by
  unfold State.endCall
  split
  · exact s.moved_failCall _ _ r
  · exact .refl s

theorem State.moved_beginOldest (n : LineNo) : s.Moved (s.beginOldest n) := by
  unfold State.beginOldest
  split
  · exact .refl s
  · next e t h =>
    have hbegun : s.Moved ((t.modLine n (beginEntry e)).tellHold (.tq n)) :=
      ((State.removeOldest_restored h).moved.trans (.modLine t n (fun l => by rw [beginEntry_eq_begins]; simp)
        (fun l => by rw [beginEntry_eq_begins]; simp) fun l => by unfold beginEntry; split <;> rfl)).trans
        (State.moved_tellHold _ _)
    exact .ite (fun _ => hbegun.trans (State.moved_tqEmptied _ n)) fun _ => hbegun

theorem State.moved_beginCode (n : LineNo) : s.Moved (s.beginCode n) :=
  .ite (fun _ => .modLine s n (by intro; rfl) (by intro; rfl) (by intro; rfl)) fun _ => .refl s

theorem State.moved_kickTx (n : LineNo) : s.Moved (s.kickTx n) :=
  .ite (fun _ => .refl s) fun _ => .ite (fun _ => s.moved_beginCode n) fun _ => .ite (fun _ => .refl s) fun _ => s.moved_beginOldest n

theorem State.moved_tellAppended (q : QueueId) (b : Bool) : s.Moved (s.tellAppended q b) := by
  unfold State.tellAppended
  split
  · exact s.moved_tellHold _
  · exact .ite (fun _ => (s.moved_tellHold _).trans (State.moved_kickTx _ _)) fun _ => s.moved_tellHold _

theorem State.moved_appendTold {t : State} {q : QueueId} {e : Entry} (h : s.appendTold q e = some t) : s.Moved t := by
  obtain ⟨u, hu, rfl⟩ := Option.map_eq_some_iff.mp h
  exact (s.moved_append hu).trans (u.moved_tellAppended _ _)

theorem State.moved_discardRq (n : LineNo) : s.Moved (s.discardRq n) := (s.moved_discard _).trans (State.moved_tellHold _ _)

theorem State.moved_discardTq (n : LineNo) : s.Moved (s.discardTq n) :=
  ((s.moved_discard _).trans (State.moved_tellHold _ _)).trans (State.moved_tqEmptied _ n)

theorem State.moved_cutDrain (n : LineNo) : s.Moved (s.cutDrain n) :=
  (((State.Moved.modLine s n (by intro; rfl) (by intro; rfl) (by intro; rfl)).trans (State.moved_discard _ _)).trans
    (State.moved_tellHold _ _)).trans (State.moved_tqEmptied _ n)

theorem State.moved_noteOverrun (x : LineNo) (p : OverrunPlace) : s.Moved (s.noteOverrun x p) :=
  .ite (fun _ => .refl s) fun _ => (State.Moved.modLine s x (by intro; rfl) (by intro; rfl) (by intro; rfl)).trans (.post _ _ _ _ _)

theorem State.moved_clearOverrun (x : LineNo) : s.Moved (s.clearOverrun x) :=
  .modLine s x (by intro; rfl) (by intro; rfl) (by intro; rfl)

theorem State.moved_routeAppend (x : LineNo) (q : QueueId) (p : OverrunPlace) (e : Entry) : s.Moved (s.routeAppend x q p e) := by
  unfold State.routeAppend
  split
  · exact s.moved_noteOverrun x p
  · next t h => exact ((s.moved_append h).trans (t.moved_clearOverrun x)).trans (State.moved_tellAppended _ _ _)

theorem State.moved_appendBatch (es : List Entry) (q : QueueId) : s.Moved (s.appendBatch q es).2 := by
  induction es generalizing s with
  | nil => exact .refl s
  | cons e es ih =>
    unfold State.appendBatch
    split
    · exact .refl s
    · next t h => exact ((s.moved_append h).trans (t.moved_tellHold q)).trans (ih _)

theorem State.moved_handOver (x y : LineNo) : s.Moved (s.handOver x y) := by
  unfold State.handOver
  dsimp only
  generalize hr : State.appendBatch _ _ _ = r
  have hbatch : s.Moved r.2 := hr ▸ (State.Moved.modLine s x (by intro; rfl) (by intro; rfl) (by intro; rfl)).trans
    (State.moved_appendBatch _ _ _)
  have hcleared : s.Moved (if r.1 < (s.line x).monitor.holding.length then r.2.clearOverrun x else r.2) :=
    .ite (fun _ => hbatch.trans (State.moved_clearOverrun _ x)) fun _ => hbatch
  generalize (if r.1 < (s.line x).monitor.holding.length then r.2.clearOverrun x else r.2) = u at hcleared ⊢
  refine .ite (fun _ => .trans ?_ (State.moved_noteOverrun _ x .peerTq)) fun _ => ?_
  all_goals exact .ite (fun _ => hcleared.trans (State.moved_kickTx _ y)) fun _ => hcleared

theorem recordOk_recordAfterRelease (reason : ReleaseReason) (r : StandingRecord) (h : RecordOk r) :
    RecordOk (recordAfterRelease reason r) := by
  cases r with
  | active c => cases reason <;> exact h
  | empty => exact h
  | idle c => exact h
  | armed c => exact h

theorem State.moved_tellStanding (o : Origin) (r : ReleaseReason) : s.Moved (s.tellStanding o r) := by
  cases o with
  | ordered => exact .refl s
  | standing i => exact .setRecord s i _ (recordOk_recordAfterRelease r _)

theorem State.moved_leaveBridge (d : Byte) (n : LineNo) : s.Moved (s.modLine n (leaveBridge d)) :=
  .modLine s n (fun _ => rfl) (fun _ => rfl) fun _ => rfl

theorem State.moved_release (x : LineNo) (r : ReleaseReason) : s.Moved (s.release x r) := by
  unfold State.release
  split
  · next c _ _ =>
    unfold State.releaseStep
    dsimp only
    refine .trans (.trans ?_ (State.moved_drainCheck _ _)) (State.moved_drainCheck _ _)
    refine .trans (.trans ?_ (State.Moved.post _ _ _ _ _)) (State.moved_tellStanding _ _ _)
    refine .trans (.trans ?_ (State.moved_holdEval _ _)) (State.moved_holdEval _ _)
    refine .trans (.trans ?_ (State.moved_leaveBridge _ _ _)) (State.moved_leaveBridge _ _ _)
    exact (s.moved_handOver x c.peer).trans (State.moved_handOver _ c.peer x)
  · exact .refl s

/-- A change of the monitor alone. -/
theorem State.moved_monitor (x : LineNo) (f : Line → Monitor) : s.Moved (s.modLine x fun l => { l with monitor := f l }) :=
  .modLine s x (by intro; rfl) (by intro; rfl) (by intro; rfl)

theorem State.moved_passOn (x : LineNo) (c : Connection) (e : Entry) : s.Moved (s.passOn x c e) := by
  unfold State.passOn
  split
  · exact s.moved_release x _
  all_goals exact s.moved_routeAppend x _ _ e

theorem State.moved_detectEscape (x : LineNo) : s.Moved (s.detectEscape x) :=
  (s.moved_monitor x _).trans (State.moved_release _ x _)

theorem State.moved_holdEscape (x : LineNo) (c : Connection) (e : Entry) : s.Moved (s.holdEscape x c e) :=
  .ite (fun _ => (s.moved_monitor x _).trans (State.moved_detectEscape _ x)) fun _ => s.moved_monitor x _

theorem State.moved_monitorTake (x : LineNo) (c : Connection) (e : Entry) : s.Moved (s.monitorTake x c e) := by
  have hfailed : s.Moved (((s.failMatch x c).settle x c).passOn x c e) :=
    ((s.moved_handOver x c.peer).trans (State.moved_monitor _ x _)).trans (State.moved_passOn _ x c e)
  unfold State.monitorTake
  split
  · exact s.moved_passOn x c e
  · exact (s.moved_monitor x _).trans (State.moved_passOn _ x c e)
  · exact .ite (fun _ => s.moved_holdEscape x c e) fun _ => (s.moved_monitor x _).trans (State.moved_passOn _ x c e)
  · exact .ite (fun _ => s.moved_holdEscape x c e) fun _ => hfailed
  · exact hfailed

theorem State.moved_route (x : LineNo) (e : Entry) : s.Moved (s.route x e) := by
  unfold State.route
  split
  · exact .refl s
  · exact (State.Moved.modLine s _ (by intro; rfl) (by intro; rfl) (by intro; rfl)).trans (State.moved_monitorTake _ x _ e)
  · exact s.moved_routeAppend x _ _ e

theorem State.moved_deliver (x : LineNo) (e : Entry) : s.Moved (s.deliver x e) := by
  unfold State.deliver
  split
  · next t h =>
    unfold State.consumeCode at h
    dsimp only at h
    split at h
    · split at h
      · cases h; exact .modLine s x (by intro; rfl) (by intro; rfl) (by intro; rfl)
      · split at h <;> cases h
        exact (State.Moved.modLine s x (by intro; rfl) (by intro; rfl) (by intro; rfl)).trans (State.moved_kickTx _ x)
    · cases h
  · exact s.moved_route x e

theorem State.moved_readyChanged (n : LineNo) (first level : Bool) : s.Moved (s.readyChanged n first level) := by
  unfold State.readyChanged
  split
  · exact .ite (fun _ => .refl s) fun _ => .post _ _ _ _ _
  · exact s.moved_endCall n _
  · split
    · exact s.moved_answer _ n
    · exact .refl s
  · exact s.moved_release n _
  all_goals exact .refl s
end

end Sys2Proof.Machine

/-! PROOF. What each command of the table does while RESET# is high and while it is low, and the rules of the host's commands: to
show a property of the state that a command leaves, show it of a refusal and of the accepted case, given the checks it passed. -/

namespace Sys2Proof.Machine

set_option Elab.async false

/-! ### The effect of a command -/

/-- What a command of the table makes of the state while RESET# is high. -/
def effect : Instr → State → State
  | .resetPin => fun s => s.resetAll .none
  | .resetPart => runCommand .resetPart
  | .openLine => runCommand .openLine
  | .closeLine => runCommand .closeLine
  | .queryLine => runCommand .queryLine
  | .setFormat => runCommand .setFormat
  | .setTiming => runCommand .setTiming
  | .setFlow => runCommand .setFlow
  | .setQuota => runCommand .setQuota
  | .sendBreak => runCommand .sendBreak
  | .flush => runCommand .flush
  | .connect => runCommand .connect
  | .release => runCommand .release
  | .setPart => runCommand .setPart
  | .standingPut => runCommand .standingPut
  | .standingArm => runCommand .standingArm
  | .standingDisarm => runCommand .standingDisarm
  | .standingDrop => runCommand .standingDrop
  | .queryStanding => runCommand .queryStanding
  | .save => runCommand .save
  | .reload => runCommand .reload
  | .unknownCommand code => writeCommand code
  | .rxChar => readRxChar
  | .txChar value => writeTxChar value
  | .partStatus => readPartStatus
  | .evtPop _ => popEvent
  | .registerWrite offset value => writeRegister offset value
  | .frameComplete line data parity stop => frameCompleted line data parity stop
  | .markWaitDone line => markWaitEnded line
  | .breakEnd line => breakEnded line
  | .hldiChange line level => hldiChanged line level
  | .readyRecognition line => recognise line
  | .itemFinished line => itemDone line
  | .breakTimerExpiry line => breakExpiry line
  | .answerTimerExpiry line => answerExpiry line
  | .idleTimerExpiry line => idleExpiry line
  | .drainTimerExpiry line => drainExpiry line
  | .silenceTimerExpiry line => silenceExpiry line
  | .imageReadDone how => imageReadEnd how
  | .pollAcknowledged => pollAcknowledge
  | .saveByteNotAcknowledged byte => byteRefused byte
  | .writePollExpiry => pollExpiry
  | .readySample levels => tickAll levels
  | .startBit line sample => startBitSampled line sample
  | .resetPinAsserted => State.assertReset
  | .saveWriteComplete => writeComplete

/-- What a command of the table makes of the state while RESET# is low. -/
def effectLow : Instr → State → State
  | .resetPin => fun s => s.resetAll .none
  | .resetPinAsserted => State.assertReset
  | .hldiChange line level => fun s => s.modLine line fun l => { l with hldi := level }
  | .rxChar | .partStatus => fun s => s.modHost fun h => { h with readData := none }
  | _ => id

theorem exec_of_high {s : State} (h : s.resetLow = false) (c : Instr) : exec c s = .next (effect c s) := by
  cases c
  case resetPin | resetPinAsserted => rfl
  case rxChar | partStatus => exact whileReading_of_high h _
  case hldiChange n level => exact congrArg _ (if_neg (by rw [h]; decide))
  all_goals exact whileRunning_of_high h _

theorem exec_of_low {s : State} (h : s.resetLow = true) (c : Instr) : exec c s = .next (effectLow c s) := by
  cases c
  case resetPin | resetPinAsserted => rfl
  case rxChar | partStatus => exact whileReading_of_low h _
  case hldiChange n level => exact congrArg _ (if_pos h)
  all_goals exact whileRunning_of_low h _

theorem effect_instrOfCommand (k : HostCommand) : effect (instrOfCommand k) = runCommand k := by cases k <;> rfl

/-- A property of what every command makes of the state holds after a step if it holds of the effects. -/
theorem step_rule {P : State → Prop} {s t : State} (h : step s = .next t) (idle : P s)
    (high : s.resetLow = false → ∀ c rest, P (effect c { s with pending := rest }))
    (low : s.resetLow = true → ∀ c rest, P (effectLow c { s with pending := rest })) : P t := by
  unfold step at h
  split at h
  · cases h; exact idle
  · next c rest _ =>
    cases hr : s.resetLow with
    | false =>
      rw [exec_of_high (s := { s with pending := rest }) hr] at h
      cases h; exact high hr c rest
    | true =>
      rw [exec_of_low (s := { s with pending := rest }) hr] at h
      cases h; exact low hr c rest

/-- A write access stores one register of the Host Port, or is a command, a TX_CHAR, an EVT_POP or nothing (R164). -/
theorem writeRegister_rule {P : State → Prop} {s : State} (offset : BitVec 5) (v : Byte) (ignored : P s)
    (store : ∀ f : HostPort → HostPort, (f s.host).events = s.host.events → (f s.host).nextSeq = s.host.nextSeq →
      ((f s.host).irqEnable = s.host.irqEnable ∨ (f s.host).irqEnable &&& 0xF8 = 0) → P (s.modHost f))
    (command : ∀ k, P (runCommand k s)) (char : P (writeTxChar v s)) (pop : P (popEvent s)) : P (writeRegister offset v s) := by
  have hparam : ∀ i, P (s.setParam i v) := fun i => store _ rfl rfl (.inl rfl)
  unfold writeRegister
  split
  · exact store _ rfl rfl (.inr (by simp [BitVec.and_assoc]))
  · unfold writeCommand
    split
    · exact command _
    · exact store _ rfl rfl (.inl rfl)
  iterate 8 exact hparam _
  · unfold State.selectLine
    split
    · exact store _ rfl rfl (.inl rfl)
    · exact ignored
  · exact char
  · exact store _ rfl rfl (.inl rfl)
  · exact store _ rfl rfl (.inl rfl)
  · exact pop
  · exact ignored

/-! ### Settings that the commands check -/

/-- Hold settings in range (R41, R53). -/
def HoldSettings.Ok (h : HoldSettings) : Prop :=
  h.pauseCode ≠ h.resumeCode ∧ 2 ≤ h.highMark.toNat ∧ h.highMark.toNat ≤ 128 ∧ h.lowMark.toNat ≤ 126 ∧
    h.lowMark.toNat + 2 ≤ h.highMark.toNat

theorem Line.settingsOk_iff (l : Line) :
    l.SettingsOk ↔ timingOk l.settings.rxThreshold l.settings.breakLength = true ∧ l.hold.Ok := Iff.rfl

theorem holdOf_ok {m p r high low : Byte} {h : HoldSettings} (he : holdOf m p r high low = some h) : h.Ok := by
  have hsome : holdOf m p r high low ≠ none := by rw [he]; exact Option.some_ne_none h
  rw [ne_eq, holdOf_eq_none_iff, not_not] at hsome
  obtain ⟨-, hrange⟩ := hsome
  unfold holdOf at he
  cases hm : methodOf m with
  | none => simp [hm] at he
  | some k =>
    simp only [hm, Option.bind_eq_bind, Option.bind_some, if_pos hrange] at he
    cases he
    exact hrange

/-! ### The host's commands (R70 to R181) -/

section
variable {s : State} {P : State → Prop} (leave : ∀ r, P (s.leave r))
include leave

theorem State.checkLine_rule {f : LineNo → State} (accepted : s.port.state ≠ .loading → ∀ n, P (f n)) : P (s.checkLine f) := by
  unfold State.checkLine
  split
  · exact leave _
  · next h =>
    split
    · exact leave _
    · exact accepted (fun hl => h (State.isLoading_eq_true hl)) _

theorem State.checkSlot_rule {f : SlotNo → State} (accepted : ∀ i, P (f i)) : P (s.checkSlot f) := by
  unfold State.checkSlot
  split
  · exact leave _
  · split
    · exact leave _
    · exact accepted _

theorem cmdOpenLine_rule (done : s.port.state ≠ .loading → ∀ n, (s.line n).state = .closed → P ((s.openLine n).leave .done)) :
    P (cmdOpenLine s) := by
  refine State.checkLine_rule leave fun hp n => ?_
  split
  · next h => exact done hp n h
  · exact leave _

theorem cmdCloseLine_rule (done : ∀ n, (s.line n).state = .host → P ((s.closeLine n).leave .done)) : P (cmdCloseLine s) := by
  refine State.checkLine_rule leave fun _ n => ?_
  split
  case h_2 h => exact done n h
  all_goals exact leave _

theorem cmdQueryLine_rule (done : ∀ v, P ((s.report v).leave .done)) : P (cmdQueryLine s) :=
  State.checkLine_rule leave fun _ _ => done _

theorem cmdSetFormat_rule (done : ∀ n fmt opened, P ((s.modLine n fun l =>
    { l with settings := { l.settings with format := fmt, openAtStart := opened }
             rx := l.rx.noteFormat l.settings.format }).leave .done)) : P (cmdSetFormat s) := by
  refine State.checkLine_rule leave fun _ n => ?_
  split
  · split
    · exact done n _ _
    · exact leave _
  · exact leave _

theorem cmdSetTiming_rule (done : ∀ n rx tx brk grace, timingOk rx brk = true → P ((s.modLine n fun l =>
    { l with settings := { l.settings with rxThreshold := rx, txThreshold := tx, breakLength := brk, readyGrace := grace } }).leave
      .done)) : P (cmdSetTiming s) := by
  refine State.checkLine_rule leave fun _ n => ?_
  split
  · next h =>
    split
    · exact done n _ _ _ _ h
    · exact leave _
  · exact leave _

theorem cmdSetFlow_rule (done : ∀ n (h : HoldSettings), h.Ok → (s.line n).state = .closed ∨ (s.line n).state = .host →
    P ((s.applyFlow n h).leave .done)) : P (cmdSetFlow s) := by
  refine State.checkLine_rule leave fun _ n => ?_
  split
  · exact leave _
  · next h he =>
    split
    · next hn => exact done n h (holdOf_ok he) (by simpa [State.settable] using hn)
    · exact leave _

theorem cmdSetQuota_rule (done : ∀ n a b c d, quotaOk a b = true → quotaOk c d = true →
    (s.setQuotas n a b c d).reserveTotal ≤ Config.cellCount → (s.setQuotas n a b c d).unmetTotal ≤ s.freeCount →
    P ((s.setQuotas n a b c d).leave .done)) : P (cmdSetQuota s) := by
  refine State.checkLine_rule leave fun _ n => ?_
  split
  · next h =>
    obtain ⟨hr, ht⟩ := Bool.and_eq_true_iff.mp h
    dsimp only
    split
    · exact leave _
    · split
      · exact leave _
      · exact done n _ _ _ _ hr ht (by omega) (by omega)
  · exact leave _

theorem cmdSendBreak_rule (done : ∀ n t, (s.line n).state = .host → s.appendTold (.tq n) { kind := .brk, value := 0 } = some t →
    P (t.leave .done)) : P (cmdSendBreak s) := by
  refine State.checkLine_rule leave fun _ n => ?_
  split
  case h_6 hn =>
    split
    · exact leave _
    · next t ht => exact done n t hn ht
  all_goals exact leave _

theorem cmdFlush_rule (rq : ∀ n, (s.line n).state ≠ .closed → P ((s.discardRq n).leave .done))
    (tq : ∀ n, (s.line n).state = .host → P ((s.discardTq n).leave .done))
    (both : ∀ n, (s.line n).state = .host → P (((s.discardRq n).discardTq n).leave .done)) : P (cmdFlush s) := by
  refine State.checkLine_rule leave fun _ n => ?_
  split
  · exact leave _
  · split
    · exact leave _
    · next hn =>
      split
      · exact leave _
      · next hh =>
        by_cases h1 : s.param 1 = 1
        · have h2 : s.param 1 ≠ 2 := by rw [h1]; decide
          simpa only [if_pos h1, if_neg h2] using rq n hn
        · have hhost : (s.line n).state = .host := by_contra fun h => hh ⟨h1, h⟩
          by_cases h2 : s.param 1 = 2
          · simpa only [if_neg h1, if_pos h2] using tq n hhost
          · simpa only [if_neg h1, if_neg h2] using both n hhost

theorem cmdConnect_rule (answered : ∀ x y, x ≠ y → connectOk s = true → (s.line x).state = .host → (s.line y).state = .host →
      s.Unreserved x → s.Unreserved y → (s.line x).ready = true → (s.line y).ready = true →
      P (((s.acceptCall x y).answer x y).leave .started))
    (offered : ∀ x y, x ≠ y → connectOk s = true → (s.line x).state = .host → (s.line y).state = .host →
      s.Unreserved x → s.Unreserved y → (s.line x).ready = true → (s.line y).ready = false →
      P ((s.offerCall x y).leave .started)) : P (cmdConnect s) := by
  have hfree : ∀ n, ¬ s.reserved n = true → s.Unreserved n := fun n h i => by
    by_contra hi
    exact h ((s.reserved_iff n).mpr ⟨i, by simpa using hi⟩)
  unfold cmdConnect
  split
  · exact leave _
  · split
    · next x y _ _ =>
      split
      · exact leave _
      · next hxy =>
        split
        · exact leave _
        · next hok =>
          split
          · exact leave _
          · next hhost =>
            split
            · exact leave _
            · next hres =>
              obtain ⟨hx, hy⟩ := not_or.mp hhost
              obtain ⟨hrx, hry⟩ := not_or.mp hres
              split
              · exact leave _
              · next hready =>
                have hready : (s.line x).ready = true := by simpa using hready
                have hok : connectOk s = true := by simpa using hok
                split
                · next hr => exact answered x y hxy hok (not_not.mp hx) (not_not.mp hy) (hfree x hrx) (hfree y hry) hready hr
                · next hr =>
                  exact offered x y hxy hok (not_not.mp hx) (not_not.mp hy) (hfree x hrx) (hfree y hry) hready (by simpa using hr)
    · exact leave _

theorem cmdRelease_rule (cancelled : ∀ n, (s.line n).state = .calling ∨ (s.line n).state = .offered →
      P ((s.endCall n .cancelled).leave .done))
    (released : ∀ n, (s.line n).state = .bridged → P ((s.release n .host).leave .done))
    (cut : ∀ n, (s.line n).state = .draining → P ((s.cutDrain n).leave .done)) : P (cmdRelease s) := by
  refine State.checkLine_rule leave fun _ n => ?_
  split
  · exact leave _
  · exact leave _
  · next h => exact cancelled n (.inl h)
  · next h => exact cancelled n (.inr h)
  · next h => exact released n h
  · next h => exact cut n h

theorem cmdSetPart_rule (done : ∀ d, d ≠ 0 → P (State.leave { s with drainLimit := d } .done)) : P (cmdSetPart s) := by
  unfold cmdSetPart
  split
  · exact leave _
  · split
    · exact leave _
    · next h => exact done _ h

theorem cmdStandingPut_rule (done : ∀ i c, c.Ok → s.record i = .empty ∨ (∃ d, s.record i = .idle d) →
    P ((s.setRecord i (.idle c)).leave .done)) : P (cmdStandingPut s) := by
  refine State.checkSlot_rule leave fun i => ?_
  split
  · next a b _ _ =>
    split
    · exact leave _
    · next hab =>
      split
      · exact leave _
      · next hok =>
        have hprofile : profileOk (s.param 4) (s.param 5) = true :=
          (Bool.and_eq_true_iff.mp (Bool.not_eq_false _ ▸ hok)).1
        have hcontents : (contentsOf s a b).Ok := ⟨hab, hprofile⟩
        split
        · exact leave _
        · exact leave _
        · next h => exact done i _ hcontents (.inl h)
        · next d h => exact done i _ hcontents (.inr ⟨d, h⟩)
  · exact leave _

theorem cmdStandingArm_rule (done : ∀ i c, s.record i = .idle c → s.reservedElsewhere i c.lineA = false →
    s.reservedElsewhere i c.lineB = false → P (((s.setRecord i (.armed c)).evaluateSlot i).leave .done)) : P (cmdStandingArm s) := by
  refine State.checkSlot_rule leave fun i => ?_
  split
  case h_4 c hi =>
    split
    · exact leave _
    · next h =>
      obtain ⟨ha, hb⟩ := Bool.or_eq_false_iff.mp (Bool.eq_false_iff.mpr h)
      exact done i c hi ha hb
  all_goals exact leave _

theorem cmdStandingDisarm_rule (done : ∀ i c, s.record i = .armed c → P ((s.setRecord i (.idle c)).leave .done)) :
    P (cmdStandingDisarm s) := by
  refine State.checkSlot_rule leave fun i => ?_
  split
  case h_4 c hi => exact done i c hi
  all_goals exact leave _

theorem cmdStandingDrop_rule (done : ∀ i, (∀ c, s.record i ≠ .active c) → P ((s.setRecord i .empty).leave .done)) :
    P (cmdStandingDrop s) := by
  refine State.checkSlot_rule leave fun i => ?_
  split
  case h_2 c hi => exact done i fun d hd => by rw [hi] at hd; cases hd
  case h_3 c hi => exact done i fun d hd => by rw [hi] at hd; cases hd
  all_goals exact leave _

theorem cmdQueryStanding_rule (done : ∀ v, P ((s.report v).leave .done)) : P (cmdQueryStanding s) :=
  State.checkSlot_rule leave fun _ => done _

theorem cmdSave_rule (started : s.port.state = .idle → P ((s.modPort fun p =>
    { p with state := .saving, bus := .writing, snapshot := saveImage s, writesMade := 0, pollTimer := none }).leave .started)) :
    P (cmdSave s) := by
  unfold cmdSave
  split
  · exact leave _
  · exact leave _
  · next h => exact started h

theorem cmdReload_rule (started : s.port.state = .idle → (∀ n, (s.line n).state = .closed) →
    P ((s.modPort MemoryPort.beginLoad).leave .started)) : P (cmdReload s) := by
  unfold cmdReload
  split
  · exact leave _
  · exact leave _
  · next h =>
    split
    · exact leave _
    · next hany =>
      refine started h fun n => ?_
      by_contra hn
      exact hany (List.any_eq_true.mpr ⟨n, mem_allLines n, by simpa using hn⟩)
end

end Sys2Proof.Machine

/-! PROOF. The laws right after a reset (O2), what a good image holds, and the laws of the Queue Store, the event queue and the settings
through every step (O3 to O5). -/

namespace Sys2Proof.Machine

set_option Elab.async false

/-! ### After a reset (R18, R39, R56, R76, R132, R147, R148, R181) -/

section
variable (s : State) (r : Result)

theorem State.resetAll_queue (q : QueueId) : (s.resetAll r).queue q = factoryQueue := by
  cases q <;> simp [State.queue, Line.resetValue]

theorem State.resetAll_quotaLaw : (s.resetAll r).QuotaLaw := by
  refine (State.quotaLaw_iff _).mpr ⟨fun q => by rw [State.resetAll_queue]; decide, ?_, ?_⟩
  · simp [State.reserveTotal, State.resetAll_queue, allQueues, factoryQueue, Config.cellCount]
  · rw [State.resetAll_unmetTotal]
    exact show 32 ≤ (List.range 128).length by simp

theorem State.resetAll_poolLaw : (s.resetAll r).PoolLaw := by
  have hnil : (allQueues.flatMap fun q => ((s.resetAll r).queue q).chain) = [] :=
    List.flatMap_eq_nil_iff.mpr fun q _ => by rw [State.resetAll_queue]; rfl
  rw [State.PoolLaw, hnil, List.append_nil]
  exact .refl _

theorem State.resetAll_queueLaw : (s.resetAll r).QueueLaw :=
  (State.queueLaw_iff _).mpr fun q => by rw [State.resetAll_queue]; exact factoryQueue.shape_discarded

theorem factoryHold_ok : factoryHold.Ok := by simp [HoldSettings.Ok, factoryHold]

theorem State.resetAll_settingsLaw : (s.resetAll r).SettingsLaw :=
  ⟨fun n => by rw [State.resetAll_line]; exact ⟨show timingOk 1 25 = true by decide, factoryHold_ok⟩, show Config.factoryDrainLimit ≠ 0 by decide,
    fun i => by rw [State.resetAll_record]; trivial⟩

theorem HostPort.resetValue_eventLaw : ({ HostPort.resetValue with result := r } : HostPort).EventLaw := by
  simp [HostPort.EventLaw, HostPort.resetValue]

theorem HostPort.resetValue_seqLaw : ({ HostPort.resetValue with result := r } : HostPort).SeqLaw := by
  simp [HostPort.SeqLaw, HostPort.resetValue]

/-- Every law of the part holds after a reset, whatever it was before. -/
theorem State.resetAll_lawful (hm : memoryWf s.memory = true) : (s.resetAll r).Lawful where
  pool := s.resetAll_poolLaw r
  queue := s.resetAll_queueLaw r
  quota := s.resetAll_quotaLaw r
  peer n := by simp [Line.resetValue]
  closed n := by simp [Line.resetValue, factoryQueue]
  loading _ n := by simp [Line.resetValue]
  standing := by simp [State.StandingLaw, State.resetAll_record, reserves, reservedLines, Line.resetValue]
  timer n := by simp [Line.resetValue, TxState.isSpacing]
  ready n := by simp [Line.resetValue]
  holding n := by simp [Line.resetValue]
  held n := by simp [Line.heldAt, Line.resetValue, State.resetAll_queue, factoryQueue, Queue.occupancy, factoryHold]
  transmit _ n _ := by simp [Line.resetValue, Line.codePending, factoryHold, factoryQueue]
  prompt _ := by simp [Line.resetValue, State.resetAll_record]
  event := HostPort.resetValue_eventLaw r
  seq := HostPort.resetValue_seqLaw r
  settings := s.resetAll_settingsLaw r
  port := by simp [State.PortLaw, MemoryPort.resetValue, Config.saveWrites]
  memory := hm
  enable := by simp [HostPort.resetValue]
end

theorem State.reset_eq : State.reset = State.reset.resetAll .none := by
  refine State.ext_lines (fun n => ?_) rfl rfl rfl rfl rfl rfl rfl rfl rfl
  rw [State.resetAll_line]
  revert n
  decide

/-- Settles O2: the state after RESET# is what a reset makes of any state. -/
theorem resetStateIsLawful : Obligations.reset_state_is_lawful := by
  unfold Obligations.reset_state_is_lawful
  rw [State.reset_eq]
  exact State.reset.resetAll_lawful .none memoryWf_reset

/-! ### Good images (R150, R152) -/

/-- The values of a line record that R152 asks for. -/
def LineImage.Ok (l : LineImage) : Prop :=
  timingOk l.settings.rxThreshold l.settings.breakLength = true ∧ l.hold.Ok ∧ quotaOk l.rqReserve l.rqLimit = true ∧
    quotaOk l.tqReserve l.tqLimit = true

/-- The reserves that a line record brings. -/
def LineImage.reserved (l : LineImage) : Nat := l.rqReserve.toNat + l.tqReserve.toNat

theorem readLineImage_ok {img : List Byte} {n : Nat} {l : LineImage} (h : readLineImage img n = some l) : l.Ok := by
  unfold readLineImage at h
  simp only [Option.bind_eq_bind, Option.bind_eq_some_iff, Option.pure_def] at h
  obtain ⟨_, -, fmt, -, hold, hhold, h⟩ := h
  split at h
  · next hok =>
    cases h
    simp only [Bool.and_eq_true] at hok
    obtain ⟨⟨hr, ht⟩, htiming⟩ := hok
    exact ⟨htiming, holdOf_ok hhold, hr, ht⟩
  · cases h

theorem judgeLines_ok {img : List Byte} (ns : List Nat) {sum : Nat} {ls : List LineImage} (hs : sum ≤ 128)
    (h : judgeLines img ns sum = .ok ls) :
    ls.length = ns.length ∧ (∀ l ∈ ls, l.Ok) ∧ sum + (ls.map LineImage.reserved).sum ≤ 128 := by
  induction ns generalizing sum ls with
  | nil => cases h; simpa
  | cons n ns ih =>
    unfold judgeLines at h
    split at h
    · cases h
    · next l hl =>
      split at h
      · cases h
      · next hsum =>
        split at h
        · cases h
        · next rest hrest =>
          cases h
          obtain ⟨hlen, hok, htotal⟩ := ih (by omega) hrest
          refine ⟨by simp [hlen], fun m hm => ?_, ?_⟩
          · obtain rfl | hm := List.mem_cons.mp hm
            · exact readLineImage_ok hl
            · exact hok m hm
          · simp only [List.map_cons, List.sum_cons, LineImage.reserved] at htotal ⊢
            omega

theorem readRecordImage_ok {img : List Byte} {i : Nat} {r : StandingRecord} (h : readRecordImage img i = some r) :
    RecordOk r ∧ ∀ c, r ≠ .active c := by
  unfold readRecordImage at h
  dsimp only at h
  split at h
  · cases h; exact ⟨trivial, nofun⟩
  · split at h
    · split at h
      · next hok =>
        obtain ⟨hab, -, hprofile, -⟩ := hok
        cases h
        split
        · exact ⟨⟨hab, hprofile⟩, nofun⟩
        · exact ⟨⟨hab, hprofile⟩, nofun⟩
      · cases h
    · cases h

theorem mem_armedLines_iff {r : StandingRecord} (h : ∀ c, r ≠ .active c) (n : LineNo) : n ∈ armedLines r ↔ reserves r n = true := by
  cases r with
  | active c => exact absurd rfl (h c)
  | empty => simp [armedLines, reserves, reservedLines]
  | idle c => simp [armedLines, reserves, reservedLines]
  | armed c => simp [armedLines, reserves, reservedLines, eq_comm (a := n)]

/-- Two records reserve no line together. -/
def Disjointly (r q : StandingRecord) : Prop := ∀ n, reserves r n = true → reserves q n = true → False

theorem judgeRecords_ok {img : List Byte} (is : List Nat) {named : List LineNo} {rs : List StandingRecord}
    (h : judgeRecords img is named = .ok rs) : rs.length = is.length ∧ (∀ r ∈ rs, RecordOk r ∧ ∀ c, r ≠ .active c) ∧
      (∀ r ∈ rs, ∀ n ∈ named, reserves r n = false) ∧ rs.Pairwise Disjointly := by
  induction is generalizing named rs with
  | nil => cases h; simp
  | cons i is ih =>
    rw [judgeRecords] at h
    split at h
    · cases h
    · next r hr =>
      split at h
      · cases h
      · next hnamed =>
        split at h
        · cases h
        · next rest hrest =>
          cases h
          obtain ⟨hlen, hok, hapart, hpair⟩ := ih hrest
          have hr := readRecordImage_ok hr
          refine ⟨by simp [hlen], fun q hq => ?_, fun q hq n hn => ?_, List.pairwise_cons.mpr ⟨fun q hq n h1 h2 => ?_, hpair⟩⟩
          · obtain rfl | hq := List.mem_cons.mp hq
            · exact hr
            · exact hok q hq
          · obtain rfl | hq := List.mem_cons.mp hq
            · by_contra hres
              refine hnamed (List.any_eq_true.mpr ⟨n, (mem_armedLines_iff hr.2 n).mpr (by simpa using hres), by simpa using hn⟩)
            · exact hapart q hq n (List.mem_append_left _ hn)
          · have := hapart q hq n (List.mem_append_right _ ((mem_armedLines_iff hr.2 n).mpr h1))
            rw [this] at h2
            cases h2

/-- What an image judged good brings (R152). -/
structure GoodImage.Ok (g : GoodImage) : Prop where
  limit : g.drainLimit ≠ 0
  lines : ∀ n, (g.line n).Ok
  pool : (allLines.map fun n => (g.line n).reserved).sum ≤ Config.cellCount
  records : ∀ i, RecordOk (g.record i) ∧ ∀ c, g.record i ≠ .active c
  disjoint : ∀ i j n, reserves (g.record i) n = true → reserves (g.record j) n = true → i = j

theorem allLines_getElem (i : Nat) (h : i < allLines.length) : allLines[i] = ⟨i, h⟩ :=
  (by decide : ∀ n : Fin 8, allLines[n.val]'n.isLt = n) ⟨i, h⟩

/-- A list of eight records, in the order of the lines. -/
theorem GoodImage.line_map {g : GoodImage} (h : g.lines.length = 8) {β : Type} (f : LineImage → β) :
    (allLines.map fun n => f (g.line n)) = g.lines.map f := by
  refine List.ext_getElem (by rw [List.length_map, List.length_map, h]; rfl) fun i h1 h2 => ?_
  rw [List.length_map] at h1 h2
  rw [List.getElem_map, List.getElem_map, allLines_getElem, GoodImage.line, List.getD_eq_getElem _ _ h2]

theorem judgeFields_ok {img : List Byte} {g : GoodImage} (h : judgeFields img = .ok g) : g.Ok := by
  unfold judgeFields at h
  split at h
  · cases h
  · next hlimit =>
    split at h
    · cases h
    · next ls hls =>
      split at h
      · cases h
      · next rs hrs =>
        cases h
        obtain ⟨hlen, hok, hsum⟩ := judgeLines_ok _ (by omega) hls
        obtain ⟨hlen', hok', -, hpair⟩ := judgeRecords_ok _ hrs
        set g : GoodImage := ⟨imageByte img 5, ls, rs⟩
        have hline : ∀ n, g.line n ∈ ls := fun n => by
          rw [GoodImage.line, List.getD_eq_getElem _ _ (hlen ▸ n.isLt)]
          exact List.getElem_mem _
        have hrecord : ∀ i : SlotNo, ∃ hi : i.val < rs.length, g.record i = rs[i.val] := fun i =>
          ⟨hlen' ▸ i.isLt, List.getD_eq_getElem _ _ (hlen' ▸ i.isLt)⟩
        refine ⟨hlimit, fun n => hok _ (hline n), ?_, fun i => ?_, fun i j n hi hj => ?_⟩
        · rw [GoodImage.line_map (g := g) hlen, ← Nat.zero_add (List.sum _)]
          exact hsum
        · obtain ⟨_, hr⟩ := hrecord i
          rw [hr]
          exact hok' _ (List.getElem_mem _)
        · obtain ⟨h1, hr1⟩ := hrecord i
          obtain ⟨h2, hr2⟩ := hrecord j
          rw [hr1] at hi
          rw [hr2] at hj
          have hapart := List.pairwise_iff_getElem.mp hpair
          rcases lt_trichotomy i.val j.val with hlt | heq | hlt
          · exact (hapart i j h1 h2 hlt n hi hj).elim
          · exact Fin.ext heq
          · exact (hapart j i h2 h1 hlt n hj hi).elim

theorem judgeImage_ok {img : List Byte} {g : GoodImage} (h : judgeImage img = .ok g) : g.Ok := by
  unfold judgeImage at h
  split at h
  · cases h
  · split at h
    · cases h
    · split at h
      · cases h
      · next g' hg => cases h; exact judgeFields_ok hg

end Sys2Proof.Machine

/-! PROOF. The laws of the Queue Store, the event queue and the settings through every step (O3 to O5): every command and event is a
change that keeps them, and the quota law of a lawful state is kept too. -/

namespace Sys2Proof.Machine

set_option Elab.async false

/-- A change of a state that keeps the quota law where its cells and its CLOSED lines are lawful too. -/
structure State.Keeps (s t : State) : Prop extends State.Kept s t where
  quota : s.PoolLaw → s.QueueLaw → s.ClosedLaw → s.LoadingLaw → s.QuotaLaw → t.QuotaLaw

theorem State.Moved.keeps {s t : State} (h : s.Moved t) : s.Keeps t := ⟨h.toKept, fun _ _ _ _ => h.quota⟩

theorem State.Keeps.moved {s t u : State} (h : s.Keeps t) (k : t.Moved u) : s.Keeps u :=
  ⟨h.toKept.trans k.toKept, fun hp hq hc hl hs => k.quota (h.quota hp hq hc hl hs)⟩

theorem State.Keeps.leave {s t : State} (h : s.Keeps t) (r : Result) : s.Keeps (t.leave r) := h.moved (.leave t r)

theorem State.moved_forLines (s : State) {f : LineNo → State → State} (h : ∀ n t, State.Moved t (f n t)) : s.Moved (forLines f s) :=
  List.foldlRecOn (motive := fun t : State => s.Moved t) allLines _ (.refl s) fun t ht n _ => ht.trans (h n t)

/-! ### Quotas -/

/-- Quotas in range whose reserves fit the pool keep the quota law while no queue holds a cell. -/
theorem State.quotaLaw_of_empty {s : State} (hp : s.PoolLaw) (he : ∀ q, (s.queue q).chain = [])
    (hq : ∀ q, quotaOk (s.queue q).reserve (s.queue q).limit = true) (hr : s.reserveTotal ≤ Config.cellCount) : s.QuotaLaw := by
  have hfree : s.freeCount = Config.cellCount := by
    have hnil : (allQueues.flatMap fun q => (s.queue q).chain) = [] := List.flatMap_eq_nil_iff.mpr fun q _ => he q
    have hlen := List.Perm.length_eq hp
    rwa [hnil, List.append_nil, List.length_range] at hlen
  have hunmet : s.unmetTotal = s.reserveTotal :=
    congrArg List.sum (List.map_congr_left fun q _ => by simp [Queue.unmet, Queue.held, he])
  exact (State.quotaLaw_iff s).mpr ⟨hq, hr, by rw [hunmet, hfree]; exact hr⟩

theorem State.kept_modLine_quotas (s : State) (n : LineNo) {f : Line → Line} (hr : ∀ l, (f l).rq.cells = l.rq.cells)
    (ht : ∀ l, (f l).tq.cells = l.tq.cells) (hs : (s.line n).SettingsOk → (f (s.line n)).SettingsOk) : s.Kept (s.modLine n f) := by
  refine .of_parts (fun q => ?_) rfl (fun m => ?_) id id id id id id
  · cases q with
    | rq m => exact s.modLine_reads (fun l => l.rq.cells) hr n m
    | tq m => exact s.modLine_reads (fun l => l.tq.cells) ht n m
  · rw [State.line_modLine]
    split
    · next h => exact h ▸ hs
    · exact id

theorem State.keeps_setQuotas (s : State) (n : LineNo) (a b c d : Byte) (hab : quotaOk a b = true) (hcd : quotaOk c d = true)
    (htotal : (s.setQuotas n a b c d).reserveTotal ≤ Config.cellCount) (hunmet : (s.setQuotas n a b c d).unmetTotal ≤ s.freeCount) :
    s.Keeps (s.setQuotas n a b c d) where
  toKept := s.kept_modLine_quotas n (by intro; rfl) (by intro; rfl) id
  quota _ _ _ _ h := by
    refine ⟨fun m => ?_, htotal, hunmet⟩
    rw [State.setQuotas, State.line_modLine]
    split
    · exact ⟨hab, hcd⟩
    · exact h.1 m

/-! ### Loads (R155, R156) -/

theorem installLine_settingsOk {g : LineImage} (h : g.Ok) (l : Line) : (installLine g l).SettingsOk := ⟨h.1, h.2.1⟩

theorem State.kept_forLines_install (s : State) {g : LineNo → LineImage} (h : ∀ n, (g n).Ok) :
    s.Kept (forLines (fun n u => u.modLine n (installLine (g n))) s) :=
  List.foldlRecOn (motive := fun t : State => s.Kept t) allLines _ (State.Moved.refl s).toKept fun t ht n _ =>
    ht.trans (t.kept_modLine_quotas n (fun _ => rfl) (fun _ => rfl) fun _ => installLine_settingsOk (h n) _)

theorem State.moved_setRecords (s : State) {g : SlotNo → StandingRecord} (h : ∀ i, RecordOk (g i)) :
    s.Moved (allSlots.foldl (fun w i => w.setRecord i (g i)) s) :=
  List.foldlRecOn (motive := fun t : State => s.Moved t) allSlots _ (.refl s) fun t ht i _ => ht.trans (.setRecord t i _ fun _ => h i)

theorem State.moved_drainLimit (s : State) {d : Byte} (h : d ≠ 0) : s.Moved { s with drainLimit := d } :=
  .of_parts (fun q => by cases q <;> rfl) rfl (fun _ => id) (fun _ => h) id id id id id

theorem State.moved_evaluateSlots (s : State) : s.Moved (allSlots.foldl (fun w i => w.evaluateSlot i) s) :=
  List.foldlRecOn (motive := fun t : State => s.Moved t) allSlots _ (.refl s) fun t ht i _ => ht.trans (t.moved_evaluateSlot i)

theorem State.kept_installSettings (s : State) {g : GoodImage} (h : g.Ok) : s.Kept (s.installSettings g) :=
  (((s.kept_forLines_install h.lines).trans (State.moved_drainLimit _ h.limit).toKept).trans
    (State.moved_setRecords _ fun i => (h.records i).1).toKept).trans (State.moved_evaluateSlots _).toKept

/-- The queues of CLOSED lines hold no cell (R21, R72). -/
theorem State.chain_of_closed {s : State} (hq : s.QueueLaw) (hc : s.ClosedLaw) (h : ∀ n, (s.line n).state = .closed) (q : QueueId) :
    (s.queue q).chain = [] := by
  have hempty : (s.queue q).entries = [] := by
    cases q with
    | rq n => exact ((hc n).1 (h n)).1
    | tq n => exact ((hc n).1 (h n)).2.1
  obtain ⟨-, -, hheld⟩ := (State.queueLaw_iff s).mp hq q
  by_contra hne
  exact (hheld hne).1 hempty

/-- New quotas for lines that are all CLOSED keep the quota law if they are in range and fit the pool. -/
theorem State.quotaLaw_installed {s t : State} (hp : s.PoolLaw) (hq : s.QueueLaw) (hc : s.ClosedLaw)
    (hclosed : ∀ n, (s.line n).state = .closed) (hf : t.freeList = s.freeList) {g : LineNo → LineImage}
    (hl : ∀ n, t.line n = installLine (g n) (s.line n)) (hg : ∀ n, (g n).Ok)
    (hr : (allLines.map fun n => (g n).reserved).sum ≤ Config.cellCount) : t.QuotaLaw := by
  have hchain : ∀ q, (t.queue q).chain = (s.queue q).chain := fun q => by cases q <;> simp only [State.queue, hl] <;> rfl
  refine State.quotaLaw_of_empty (by simpa only [State.PoolLaw, hchain, hf] using hp)
    (fun q => by rw [hchain]; exact State.chain_of_closed hq hc hclosed q) (fun q => ?_) ?_
  · cases q with
    | rq n => rw [State.queue, hl]; exact (hg n).2.2.1
    | tq n => rw [State.queue, hl]; exact (hg n).2.2.2
  · rw [← sum_reserves]
    simp only [hl]
    exact hr

theorem State.keeps_install (s : State) {g : GoodImage} (hg : g.Ok) (hp : s.port.state = .loading) : s.Keeps (s.install g) := by
  have hsettings : s.Keeps (s.installSettings g) := by
    refine ⟨s.kept_installSettings hg, fun hpool hq hc hl _ => ?_⟩
    have hclosed := hl hp
    refine State.quotaLaw_installed hpool hq hc hclosed (by rw [State.installSettings_eq g hclosed]) (fun n => ?_) hg.lines hg.pool
    rw [State.installSettings_eq g hclosed]
    simp [State.line, Vector.get_eq_getElem]
  refine ((hsettings.moved (.modPort _ _)).moved (.post _ _ _ _ _)).moved (State.moved_forLines _ fun n t => ?_)
  exact .ite (fun _ => t.moved_openLine n) fun _ => .refl t

theorem factoryLineImage_ok : factoryLineImage.Ok := ⟨by decide, factoryHold_ok, by decide, by decide⟩

theorem State.keeps_loadFailed (s : State) (o : LoadOutcome) (index : Byte) (hp : s.port.state = .loading) :
    s.Keeps (s.loadFailed o index) := by
  have hinstalled := s.kept_forLines_install (g := fun _ => factoryLineImage) fun _ => factoryLineImage_ok
  have hrecords : ∀ i, State.record (s.loadFailed o index) i = .empty := fun i => by
    simp [State.loadFailed, State.record, Vector.get_eq_getElem]
  refine ⟨hinstalled.trans (.of_parts (fun q => by cases q <;> rfl) rfl (fun _ => id) (fun _ => ?_) id (fun _ i => ?_)
    (fun h => h.post _ _ _ _) (fun h => h.post _ _ _ _) (State.Moved.post _ _ _ _ _).enable), fun hpool hq hc hl _ => ?_⟩
  · exact show Config.factoryDrainLimit ≠ 0 by decide
  · exact (hrecords i) ▸ trivial
  · refine State.quotaLaw_installed hpool hq hc (hl hp) rfl (g := fun _ => factoryLineImage) (fun n => ?_)
      (fun _ => factoryLineImage_ok) (by decide)
    rw [State.loadFailed_eq]
    simp [State.line, Vector.get_eq_getElem]

/-! ### Host commands -/

theorem State.moved_report (s : State) (v : Vector Byte 8) : s.Moved (s.report v) := .modHost s rfl rfl id

theorem State.keeps_resetAll (s : State) (r : Result) : s.Keeps (s.resetAll r) where
  pool _ := s.resetAll_poolLaw r
  queue _ := s.resetAll_queueLaw r
  event _ := HostPort.resetValue_eventLaw r
  seq _ := HostPort.resetValue_seqLaw r
  settings _ := s.resetAll_settingsLaw r
  memory := id
  enable _ := by simp [HostPort.resetValue]
  quota _ _ _ _ _ := s.resetAll_quotaLaw r

theorem State.moved_closeLine (s : State) (n : LineNo) : s.Moved (s.closeLine n) :=
  ((s.moved_discard _).trans (State.moved_discard _ _)).trans (.modLine _ n (by intro; rfl) (by intro; rfl) (by intro; rfl))

theorem State.moved_applyFlow (s : State) (n : LineNo) {h : HoldSettings} (hok : h.Ok) : s.Moved (s.applyFlow n h) := by
  have hset : s.Moved ((s.modLine n fun l => { l with hold := h }).compareMarks n) :=
    (State.Moved.modLine_settings s n (f := fun l => { l with hold := h }) (fun _ => rfl) (fun _ => rfl) fun hs => ⟨hs.1, hok⟩).trans
      (.modLine _ n (by intro; rfl) (by intro; rfl) (by intro; rfl))
  exact (State.Moved.ite (fun _ => hset.trans (.modLine _ n (by intro; rfl) (by intro; rfl) (by intro; rfl))) fun _ => hset).trans
    (State.moved_kickTx _ n)

theorem State.moved_acceptCall (s : State) (x y : LineNo) : s.Moved (s.acceptCall x y) :=
  (State.Moved.modLine s x (by intro; rfl) (by intro; rfl) (by intro; rfl)).trans
    (.modLine _ y (by intro; rfl) (by intro; rfl) (by intro; rfl))

theorem State.moved_offerCall (s : State) (x y : LineNo) : s.Moved (s.offerCall x y) :=
  ((s.moved_acceptCall x y).trans (.modLine _ x (by intro; rfl) (by intro; rfl) (by intro; rfl))).trans
    (.modLine _ y (by intro; rfl) (by intro; rfl) (by intro; rfl))

theorem runCommand_keeps (k : HostCommand) (s : State) : s.Keeps (runCommand k s) := by
  have leave : ∀ r, s.Keeps (s.leave r) := fun r => (State.Moved.leave s r).keeps
  have moved : ∀ {t : State} (r : Result), s.Moved t → s.Keeps (t.leave r) := fun r h => h.keeps.leave r
  cases k with
  | openLine => exact cmdOpenLine_rule leave fun _ n _ => moved _ (s.moved_openLine n)
  | closeLine => exact cmdCloseLine_rule leave fun n _ => moved _ (s.moved_closeLine n)
  | queryLine => exact cmdQueryLine_rule leave fun v => moved _ (s.moved_report v)
  | setFormat =>
    exact cmdSetFormat_rule leave fun n _ _ => moved _ (.modLine_settings s n (by intro; rfl) (by intro; rfl) id)
  | setTiming =>
    exact cmdSetTiming_rule leave fun n _ _ _ _ h => moved _ (.modLine_settings s n (by intro; rfl) (by intro; rfl) fun hs => ⟨h, hs.2⟩)
  | setFlow => exact cmdSetFlow_rule leave fun n _ hok _ => moved _ (s.moved_applyFlow n hok)
  | setQuota =>
    exact cmdSetQuota_rule leave fun n a b c d hab hcd ht hu => (s.keeps_setQuotas n a b c d hab hcd ht hu).leave _
  | sendBreak => exact cmdSendBreak_rule leave fun _ _ _ h => moved _ (s.moved_appendTold h)
  | flush =>
    exact cmdFlush_rule leave (fun n _ => moved _ (s.moved_discardRq n)) (fun n _ => moved _ (s.moved_discardTq n))
      fun n _ => moved _ ((s.moved_discardRq n).trans (State.moved_discardTq _ n))
  | connect =>
    exact cmdConnect_rule leave (fun x y _ _ _ _ _ _ _ _ => moved _ ((s.moved_acceptCall x y).trans (State.moved_answer _ x y)))
      fun x y _ _ _ _ _ _ _ _ => moved _ (s.moved_offerCall x y)
  | release =>
    exact cmdRelease_rule leave (fun n _ => moved _ (s.moved_endCall n _)) (fun n _ => moved _ (s.moved_release n _))
      fun n _ => moved _ (s.moved_cutDrain n)
  | setPart => exact cmdSetPart_rule leave fun _ hd => moved _ (s.moved_drainLimit hd)
  | standingPut => exact cmdStandingPut_rule leave fun i c hc _ => moved _ (.setRecord s i _ fun _ => hc)
  | standingArm =>
    exact cmdStandingArm_rule leave fun i c hi _ _ =>
      moved _ ((State.Moved.setRecord s i (.armed c) (by rw [hi]; exact id)).trans (State.moved_evaluateSlot _ i))
  | standingDisarm => exact cmdStandingDisarm_rule leave fun i c hi => moved _ (.setRecord s i (.idle c) (by rw [hi]; exact id))
  | standingDrop => exact cmdStandingDrop_rule leave fun i _ => moved _ (.setRecord s i .empty fun _ => trivial)
  | queryStanding => exact cmdQueryStanding_rule leave fun v => moved _ (s.moved_report v)
  | save => exact cmdSave_rule leave fun _ => moved _ (.modPort s _)
  | reload => exact cmdReload_rule leave fun _ _ => moved _ (.modPort s _)
  | resetPart => exact s.keeps_resetAll .done

/-! ### Accesses and events -/

theorem State.keeps_popEvent (s : State) : s.Keeps (popEvent s) := by
  have hkept : (∀ h : HostPort, h.EventLaw → HostPort.EventLaw (match h.events with
        | [] => { h with popEmpty := true } | _ :: rest => { h with events := rest })) := fun h hl => by
    split
    · exact hl
    · next he => exact hl.tail he
  have hseq : (∀ h : HostPort, h.SeqLaw → HostPort.SeqLaw (match h.events with
        | [] => { h with popEmpty := true } | _ :: rest => { h with events := rest })) := fun h hl => by
    split
    · exact hl
    · next he => exact hl.tail he
  refine State.Moved.keeps (.of_parts (fun q => by cases q <;> rfl) rfl (fun _ => id) id id id (hkept _) (hseq _) fun h => ?_)
  rw [popEvent, State.modHost_host]
  split <;> exact h

theorem State.moved_writeTxChar (v : Byte) (s : State) : s.Moved (writeTxChar v s) := by
  have refused : s.Moved s.refuseTx := .modHost s rfl rfl id
  unfold writeTxChar
  split
  · exact refused
  · split
    · exact refused
    · split
      · exact refused
      · next t h => exact s.moved_appendTold h

theorem State.moved_readPartStatus (s : State) : s.Moved (readPartStatus s) := .modHost s rfl rfl id

theorem State.moved_readRxChar (s : State) : s.Moved (readRxChar s) := by
  unfold readRxChar
  split
  · exact .modHost s rfl rfl id
  · next e t h => exact ((State.removeOldest_restored h).moved.trans (.modHost t rfl rfl id)).trans (State.moved_tellHold _ _)

theorem State.keeps_writeRegister (offset : BitVec 5) (v : Byte) (s : State) : s.Keeps (writeRegister offset v s) :=
  writeRegister_rule offset v (State.Moved.refl s).keeps
    (fun _ he hn hi => (State.Moved.modHost s he hn fun h => hi.elim (fun hi => hi ▸ h) id).keeps) (fun k => runCommand_keeps k s)
    (s.moved_writeTxChar v).keeps s.keeps_popEvent

theorem State.moved_itemDone (n : LineNo) (s : State) : s.Moved (itemDone n s) := by
  have hdone : s.Moved ((s.modLine n fun l => { l with tx := .idle }).kickTx n) :=
    (State.Moved.modLine s n (by intro; rfl) (by intro; rfl) (by intro; rfl)).trans (State.moved_kickTx _ n)
  unfold itemDone
  split
  case h_4 | h_5 => exact .refl s
  all_goals exact .ite (fun _ => hdone.trans (State.moved_drainCheck _ n)) fun _ => hdone

theorem State.moved_recognise (n : LineNo) (s : State) : s.Moved (recognise n s) := by
  have hchanged : s.Moved ((s.modLine n fun l => { l with ready := (s.line n).rdySample, graceCount := 0, readyDue := .none }).readyChanged n
      ((s.line n).readyDue == .first) (s.line n).rdySample) :=
    (State.Moved.modLine s n (by intro; rfl) (by intro; rfl) (by intro; rfl)).trans (State.moved_readyChanged _ n _ _)
  exact .ite (fun _ => .refl s) fun _ => .ite (fun _ => hchanged.trans (State.moved_evaluateLine _ n)) fun _ => hchanged

theorem State.moved_silenceExpiry (n : LineNo) (s : State) : s.Moved (silenceExpiry n s) := by
  refine .ite (fun _ => ?_) fun _ => .refl s
  split
  · exact s.moved_monitor n _
  · exact (s.moved_handOver n _).trans (State.moved_monitor _ n _)
  · exact s.moved_detectEscape n
  · exact .refl s

theorem State.keeps_imageReadEnd (how : ReadEnd) (s : State) : s.Keeps (imageReadEnd how s) := by
  unfold imageReadEnd
  split
  · next hl =>
    have hp : s.port.state = .loading := by simpa [State.isLoading] using hl
    cases how with
    | notAcknowledged k => exact s.keeps_loadFailed _ _ hp
    | finished before =>
      have hread : ∀ {t : State}, (s.modPort fun p => { p with loadBuffer := readImage s.memory before }).Keeps t → s.Keeps t :=
        fun h => ⟨(State.Moved.modPort s _).toKept.trans h.toKept, fun hpool hq hc hl hs => h.quota
          (by simpa only [State.PoolLaw, State.modPort_queue, State.modPort_freeList] using hpool) hq hc hl hs⟩
      dsimp only
      split
      · exact hread (State.keeps_loadFailed _ _ _ hp)
      · next g hg => exact hread (State.keeps_install _ (judgeImage_ok hg) hp)
  · exact (State.Moved.refl s).keeps

theorem State.moved_endSave (s : State) (o : SaveOutcome) : s.Moved (s.endSave o) := (State.Moved.modPort s _).trans (.post _ _ _ _ _)

theorem State.moved_writeComplete (s : State) : s.Moved (writeComplete s) := by
  refine .ite (fun _ => State.Moved.trans ?_ (.modPort _ _)) fun _ => .refl s
  exact .of_parts (fun q => by cases q <;> rfl) rfl (fun _ => id) id (memoryWf_writeAll _ _ _) id id id id

theorem State.moved_ticked (s : State) : s.Moved { s with firstTick := false } :=
  .of_parts (fun q => by cases q <;> rfl) rfl (fun _ => id) id id id id id id

theorem State.moved_lowered (s : State) : s.Moved { s with resetLow := true } :=
  .of_parts (fun q => by cases q <;> rfl) rfl (fun _ => id) id id id id id id

theorem State.moved_tickAll (levels : Byte) (s : State) : s.Moved (tickAll levels s) := by
  have hlines := s.moved_forLines (f := fun n u => u.modLine n fun l => l.tick.sampleReady s.firstTick (levels.getLsbD n.val))
    fun n t => .modLine t n (fun l => by unfold Line.sampleReady; split <;> [rfl; (split <;> rfl)])
      (fun l => by unfold Line.sampleReady; split <;> [rfl; (split <;> rfl)])
      fun l => by unfold Line.sampleReady; split <;> [rfl; (split <;> rfl)]
  refine (hlines.trans (State.moved_ticked _)).trans ?_
  unfold tickAll
  exact .modPort _ _

theorem State.moved_assertReset (s : State) : s.Moved s.assertReset := by
  have hlines := s.moved_forLines (f := fun n t => t.modLine n fun l => { l with tx := .idle, breakTimer := none })
    fun n t => .modLine t n (by intro; rfl) (by intro; rfl) (by intro; rfl)
  exact ((hlines.trans (State.moved_lowered _)).trans (.modPort _ _)).trans (.modHost _ rfl rfl id)

section
variable (s : State) (n : LineNo)

theorem State.moved_rx (f : Line → RxState) : s.Moved (s.modLine n fun l => { l with rx := f l }) :=
  .modLine s n (by intro; rfl) (by intro; rfl) (by intro; rfl)

theorem State.moved_frameCompleted (data : Byte) (parity stop : Bool) : s.Moved (frameCompleted n data parity stop s) := by
  unfold frameCompleted
  split
  · exact (s.moved_rx n _).trans (State.moved_deliver _ n _)
  all_goals exact .refl s

theorem State.moved_markWaitEnded : s.Moved (markWaitEnded n s) := by
  unfold markWaitEnded
  split
  · exact s.moved_rx n _
  all_goals exact .refl s

theorem State.moved_breakEnded : s.Moved (breakEnded n s) := by
  unfold breakEnded
  split
  · exact s.moved_rx n _
  all_goals exact .refl s

theorem State.moved_startBitSampled (sample : StartSample) : s.Moved (startBitSampled n sample s) := by
  unfold startBitSampled
  split
  · split
    · exact .refl s
    · exact s.moved_rx n _
  all_goals exact .refl s

theorem State.moved_breakExpiry : s.Moved (breakExpiry n s) := by
  unfold breakExpiry
  split
  · exact .ite (fun _ => .modLine s n (by intro; rfl) (by intro; rfl) (by intro; rfl)) fun _ => .refl s
  all_goals exact .refl s
end

theorem keeps_writeCommand (code : Byte) (s : State) : s.Keeps (writeCommand code s) := by
  unfold writeCommand
  split
  · exact runCommand_keeps _ s
  · exact (State.Moved.leave s _).keeps

/-- What every command and event keeps while RESET# is high. -/
theorem effect_keeps (c : Instr) (s : State) : s.Keeps (effect c s) := by
  cases c
  case resetPin => exact s.keeps_resetAll .none
  case unknownCommand code => exact keeps_writeCommand code s
  case rxChar => exact s.moved_readRxChar.keeps
  case txChar v => exact (s.moved_writeTxChar v).keeps
  case partStatus => exact s.moved_readPartStatus.keeps
  case evtPop => exact s.keeps_popEvent
  case registerWrite offset v => exact s.keeps_writeRegister offset v
  case frameComplete n data parity stop => exact (s.moved_frameCompleted n data parity stop).keeps
  case markWaitDone n => exact (s.moved_markWaitEnded n).keeps
  case breakEnd n => exact (s.moved_breakEnded n).keeps
  case hldiChange n level =>
    exact ((State.Moved.modLine s n (f := fun l => { l with hldi := level }) (fun _ => rfl) (fun _ => rfl) fun _ => rfl).trans
      (State.moved_kickTx _ n)).keeps
  case readyRecognition n => exact (s.moved_recognise n).keeps
  case itemFinished n => exact (s.moved_itemDone n).keeps
  case breakTimerExpiry n => exact (s.moved_breakExpiry n).keeps
  case answerTimerExpiry n => exact (State.Moved.ite (fun _ => s.moved_endCall n _) fun _ => .refl s).keeps
  case idleTimerExpiry n => exact (State.Moved.ite (fun _ => s.moved_release n _) fun _ => .refl s).keeps
  case drainTimerExpiry n => exact (State.Moved.ite (fun _ => s.moved_cutDrain n) fun _ => .refl s).keeps
  case silenceTimerExpiry n => exact (s.moved_silenceExpiry n).keeps
  case imageReadDone how => exact s.keeps_imageReadEnd how
  case pollAcknowledged =>
    exact (State.Moved.ite (fun _ => .ite (fun _ => s.moved_endSave _) fun _ => .modPort s _) fun _ => .refl s).keeps
  case saveByteNotAcknowledged byte => exact (State.Moved.ite (fun _ => s.moved_endSave _) fun _ => .refl s).keeps
  case writePollExpiry => exact (State.Moved.ite (fun _ => s.moved_endSave _) fun _ => .refl s).keeps
  case readySample levels => exact (s.moved_tickAll levels).keeps
  case startBit n sample => exact (s.moved_startBitSampled n sample).keeps
  case resetPinAsserted => exact s.moved_assertReset.keeps
  case saveWriteComplete => exact s.moved_writeComplete.keeps
  all_goals
    dsimp only [effect]
    exact runCommand_keeps _ s

theorem effectLow_keeps (c : Instr) (s : State) : s.Keeps (effectLow c s) := by
  cases c
  case resetPin => exact s.keeps_resetAll .none
  case resetPinAsserted => exact s.moved_assertReset.keeps
  case hldiChange n level =>
    exact (State.Moved.modLine s n (f := fun l => { l with hldi := level }) (fun _ => rfl) (fun _ => rfl) fun _ => rfl).keeps
  case rxChar | partStatus => exact (State.Moved.modHost s (f := fun h => { h with readData := none }) rfl rfl id).keeps
  all_goals exact (State.Moved.refl s).keeps

/-! ### Steps -/

/-- The queue of commands is no part of these laws. -/
theorem State.Keeps.of_pending {s t : State} {rest : List Instr} (h : State.Keeps { s with pending := rest } t) : s.Keeps t where
  pool := h.pool
  queue := h.queue
  event := h.event
  seq := h.seq
  settings := h.settings
  memory := h.memory
  enable := h.enable
  quota := h.quota

theorem step_keeps {s t : State} (h : step s = .next t) : s.Keeps t :=
  step_rule h (State.Moved.refl s).keeps (fun _ c _ => .of_pending (effect_keeps c _)) fun _ c _ => .of_pending (effectLow_keeps c _)

/-- Settles O3: every change of the store is an append, a removal or a discard of one queue after another, or moves no cell. -/
theorem stepKeepsQueueStoreLaws : Obligations.step_keeps_queue_store_laws := by
  rintro s t ⟨hpool, hqueue⟩ h
  exact ⟨(step_keeps h).pool hpool, (step_keeps h).queue hqueue⟩

/-- Settles O4: the queue changes by the posting rule, by EVT_POP and by a reset alone. -/
theorem stepKeepsEventQueueLaw : Obligations.step_keeps_event_queue_law := by
  rintro s t ⟨hevent, hseq⟩ h
  exact ⟨(step_keeps h).event hevent, (step_keeps h).seq hseq⟩

/-- Settles O5: settings change by the commands that check them and by a load that has judged them. -/
theorem stepKeepsSettingsInRange : Obligations.step_keeps_settings_in_range := by
  rintro s t ⟨hsettings, henable, hmemory⟩ h
  exact ⟨(step_keeps h).settings hsettings, (step_keeps h).enable henable, (step_keeps h).memory hmemory⟩

end Sys2Proof.Machine

/-! PROOF. The invariant behind O6: what each line keeps by itself and with its peer, and what a change of the state may still owe -
a transmitter to begin, a drain to check, a record to evaluate, a monitor to set, a ready level to act on. -/

namespace Sys2Proof.Machine

set_option Elab.async false

/-! ### One line -/

/-- What a line keeps by itself in every state (R5, R11, R55, R59, R62, R72, R110). -/
structure Line.Sound (l : Line) : Prop where
  closed : l.state = .closed → l.rq.entries = [] ∧ l.tq.entries = [] ∧ l.inputHeld = false ∧ l.announced = .running ∧
    l.receivedPause = false ∧ l.overrun = false
  receiver : l.rx = .disabled ↔ l.state = .closed
  answering : l.answerTimer.isSome = true → l.state = .calling
  draining : l.drainTimer.isSome = true → l.state = .draining
  idling : l.idleTimer.isSome = true → l.state = .bridged ∧ l.conn.map (·.role) = some .caller
  spacing : l.breakTimer.isSome = l.tx.isSpacing
  tally : l.tally ≤ 255 ∧ (l.tally ≠ 0 → l.state = .draining)
  settings : l.SettingsOk

/-- An idle transmitter has nothing that it may begin (R9). -/
def Line.Served (l : Line) : Prop := l.tx = .idle → l.codePending = false ∧ (l.outputHeld = true ∨ l.tq.entries = [])

/-- A DRAINING line has something left to send (R110). -/
def Line.Undrained (l : Line) : Prop := l.state = .draining → l.drained = false

/-- The monitor agrees with the connection, and is OFF without one (R126, R133). -/
def Line.Watched (l : Line) : Prop :=
  match l.conn with
  | none => l.monitor = .offValue
  | some c => profileOk c.escCount c.guardTime = true ∧ if l.state = .bridged then MonitorOk l.monitor c else l.monitor = .offValue

/-- The recognised ready level is the one of the call or connection (R85, R101). -/
def Line.ReadyOk (l : Line) : Prop :=
  (l.state = .bridged → l.ready = true) ∧ (l.state = .calling → l.ready = true) ∧ (l.state = .offered → l.ready = false)

/-- The line meets the conditions of establishment (R140). -/
def Line.Eligible (l : Line) : Prop := l.state = .host ∧ l.tq.entries = [] ∧ l.ready = true

theorem State.conditions_iff (s : State) (c : Contents) : s.Conditions c ↔ (s.line c.lineA).Eligible ∧ (s.line c.lineB).Eligible :=
  ⟨fun h => ⟨h _ (.inl rfl), h _ (.inr rfl)⟩, by rintro ⟨ha, hb⟩ n (rfl | rfl) <;> assumption⟩

/-! ### One line with its peer -/

/-- A line has its optional parts exactly in a call or connection, with a peer that agrees (R58, R60). -/
def State.PeerOk (s : State) (n : LineNo) : Prop :=
  match (s.line n).conn with
  | none => (s.line n).state = .closed ∨ (s.line n).state = .host ∨ (s.line n).state = .draining
  | some c => c.peer ≠ n ∧ pairedStates (s.line n) (s.line c.peer) c.role = true ∧ ((s.line n).state ≠ .bridged → c.origin = .ordered) ∧
      match (s.line c.peer).conn with
      | none => False
      | some d => pairedParts n c d = true

/-- What a line keeps, by itself and with its peer. -/
structure State.SoundAt (s : State) (n : LineNo) : Prop where
  line : (s.line n).Sound
  peer : s.PeerOk n
  held : (s.line n).heldAt (s.queue (s.destination n)).occupancy = (s.line n).inputHeld
  loading : s.port.state = .loading → (s.line n).state = .closed

/-! ### What a change of the state may still owe -/

/-- The lines on which something is still to be done: an idle transmitter to begin, a drain to check, an ARMED record to evaluate, a
monitor to set, and a ready level to act on. -/
structure Debts where
  tx : List LineNo
  drain : List LineNo
  record : List LineNo
  monitor : List LineNo
  ready : List LineNo

/-- Nothing is owed. -/
def Debts.none : Debts := ⟨[], [], [], [], []⟩

/-- What is owed on one line is owed under the other debts too. -/
structure Debts.Within (d e : Debts) (n : LineNo) : Prop where
  tx : n ∈ d.tx → n ∈ e.tx
  drain : n ∈ d.drain → n ∈ e.drain
  monitor : n ∈ d.monitor → n ∈ e.monitor
  ready : n ∈ d.ready → n ∈ e.ready

theorem Debts.Within.refl (d : Debts) (n : LineNo) : d.Within d n := ⟨id, id, id, id⟩

/-- What a line keeps but for what is owed on it. -/
structure State.SoundFor (s : State) (d : Debts) (n : LineNo) : Prop extends State.SoundAt s n where
  served : n ∉ d.tx → (s.line n).Served
  undrained : n ∉ d.drain → (s.line n).Undrained
  watched : n ∉ d.monitor → (s.line n).Watched
  ready : n ∉ d.ready → (s.line n).ReadyOk

/-- No ARMED record has its conditions, but for records that name a line of the list (R140). -/
def State.Quiet (s : State) (owed : List LineNo) : Prop :=
  ∀ i c, s.record i = .armed c → c.lineA ∉ owed → c.lineB ∉ owed → ¬ s.Conditions c

/-- The laws of lines, connections and records, but for what is owed. -/
structure State.Sound (s : State) (d : Debts) : Prop where
  lines : ∀ n, s.SoundFor d n
  standing : s.StandingLaw
  records : ∀ i, RecordOk (s.record i)
  quiet : s.Quiet d.record
  port : s.PortLaw

/-! ### Debts grow and are paid -/

theorem State.SoundFor.mono {s : State} {d e : Debts} {n : LineNo} (h : s.SoundFor d n) (hde : d.Within e n) : s.SoundFor e n where
  toSoundAt := h.toSoundAt
  served hn := h.served (hn ∘ hde.tx)
  undrained hn := h.undrained (hn ∘ hde.drain)
  watched hn := h.watched (hn ∘ hde.monitor)
  ready hn := h.ready (hn ∘ hde.ready)

theorem State.Quiet.of_eligible {s t : State} {owed more : List LineNo} (h : s.Quiet owed)
    (hr : ∀ i c, t.record i = .armed c → s.record i = .armed c)
    (he : ∀ n, n ∉ more → (t.line n).Eligible → n ∉ owed ∧ (s.line n).Eligible) : t.Quiet more := by
  intro i c hi ha hb hc
  obtain ⟨hca, hcb⟩ := (t.conditions_iff c).mp hc
  obtain ⟨ha, hea⟩ := he _ ha hca
  obtain ⟨hb, heb⟩ := he _ hb hcb
  exact h i c (hr i c hi) ha hb ((s.conditions_iff c).mpr ⟨hea, heb⟩)

theorem State.Quiet.mono {s : State} {owed more : List LineNo} (h : s.Quiet owed) (hs : ∀ n, n ∈ owed → n ∈ more) : s.Quiet more :=
  h.of_eligible (fun _ _ => id) fun n hn he => ⟨hn ∘ hs n, he⟩

theorem State.Sound.mono {s : State} {d e : Debts} (h : s.Sound d) (hde : ∀ n, d.Within e n) (hr : ∀ n, n ∈ d.record → n ∈ e.record) :
    s.Sound e :=
  ⟨fun n => (h.lines n).mono (hde n), h.standing, h.records, h.quiet.mono hr, h.port⟩

section
variable {s : State} {tx drain record monitor ready : List LineNo}

theorem State.Sound.pay_tx {n : LineNo} (h : s.Sound ⟨n :: tx, drain, record, monitor, ready⟩) (hn : (s.line n).Served) :
    s.Sound ⟨tx, drain, record, monitor, ready⟩ where
  lines m := { (h.lines m) with
    served := fun hm => by
      by_cases e : m = n
      · exact e ▸ hn
      · exact (h.lines m).served (List.not_mem_cons_of_ne_of_not_mem e hm) }
  standing := h.standing
  records := h.records
  port := h.port
  quiet := h.quiet

theorem State.Sound.pay_drain {n : LineNo} (h : s.Sound ⟨tx, n :: drain, record, monitor, ready⟩) (hn : (s.line n).Undrained) :
    s.Sound ⟨tx, drain, record, monitor, ready⟩ where
  lines m := { (h.lines m) with
    undrained := fun hm => by
      by_cases e : m = n
      · exact e ▸ hn
      · exact (h.lines m).undrained (List.not_mem_cons_of_ne_of_not_mem e hm) }
  standing := h.standing
  records := h.records
  port := h.port
  quiet := h.quiet

theorem State.Sound.pay_monitor {n : LineNo} (h : s.Sound ⟨tx, drain, record, n :: monitor, ready⟩) (hn : (s.line n).Watched) :
    s.Sound ⟨tx, drain, record, monitor, ready⟩ where
  lines m := { (h.lines m) with
    watched := fun hm => by
      by_cases e : m = n
      · exact e ▸ hn
      · exact (h.lines m).watched (List.not_mem_cons_of_ne_of_not_mem e hm) }
  standing := h.standing
  records := h.records
  port := h.port
  quiet := h.quiet

theorem State.Sound.pay_ready {n : LineNo} (h : s.Sound ⟨tx, drain, record, monitor, n :: ready⟩) (hn : (s.line n).ReadyOk) :
    s.Sound ⟨tx, drain, record, monitor, ready⟩ where
  lines m := { (h.lines m) with
    ready := fun hm => by
      by_cases e : m = n
      · exact e ▸ hn
      · exact (h.lines m).ready (List.not_mem_cons_of_ne_of_not_mem e hm) }
  standing := h.standing
  records := h.records
  port := h.port
  quiet := h.quiet

theorem State.Sound.pay_record {n : LineNo} (h : s.Sound ⟨tx, drain, n :: record, monitor, ready⟩) (hn : ¬ (s.line n).Eligible) :
    s.Sound ⟨tx, drain, record, monitor, ready⟩ where
  lines m := { (h.lines m) with }
  standing := h.standing
  records := h.records
  port := h.port
  quiet := h.quiet.of_eligible (fun _ _ => id) fun _ hm he =>
    ⟨List.not_mem_cons_of_ne_of_not_mem (fun e => hn (e ▸ he)) hm, he⟩

theorem State.Sound.owe_tx (h : s.Sound ⟨tx, drain, record, monitor, ready⟩) (n : LineNo) :
    s.Sound ⟨n :: tx, drain, record, monitor, ready⟩ :=
  h.mono (fun _ => ⟨List.mem_cons_of_mem n, id, id, id⟩) fun _ => id

theorem State.Sound.owe_drain (h : s.Sound ⟨tx, drain, record, monitor, ready⟩) (n : LineNo) :
    s.Sound ⟨tx, n :: drain, record, monitor, ready⟩ :=
  h.mono (fun _ => ⟨id, List.mem_cons_of_mem n, id, id⟩) fun _ => id

theorem State.Sound.owe_record (h : s.Sound ⟨tx, drain, record, monitor, ready⟩) (n : LineNo) :
    s.Sound ⟨tx, drain, n :: record, monitor, ready⟩ :=
  h.mono (fun _ => ⟨id, id, id, id⟩) fun _ => List.mem_cons_of_mem n

theorem State.Sound.owe_monitor (h : s.Sound ⟨tx, drain, record, monitor, ready⟩) (n : LineNo) :
    s.Sound ⟨tx, drain, record, n :: monitor, ready⟩ :=
  h.mono (fun _ => ⟨id, id, List.mem_cons_of_mem n, id⟩) fun _ => id

theorem State.Sound.owe_ready (h : s.Sound ⟨tx, drain, record, monitor, ready⟩) (n : LineNo) :
    s.Sound ⟨tx, drain, record, monitor, n :: ready⟩ :=
  h.mono (fun _ => ⟨id, id, id, List.mem_cons_of_mem n⟩) fun _ => id
end

/-! ### Peers -/

section
variable {s : State} {n : LineNo}

theorem State.PeerOk.of_some {c : Connection} (h : s.PeerOk n) (hc : (s.line n).conn = some c) :
    c.peer ≠ n ∧ pairedStates (s.line n) (s.line c.peer) c.role = true ∧ ((s.line n).state ≠ .bridged → c.origin = .ordered) ∧
      ∃ d, (s.line c.peer).conn = some d ∧ pairedParts n c d = true := by
  unfold State.PeerOk at h
  rw [hc] at h
  obtain ⟨hne, hstates, horigin, hparts⟩ := h
  split at hparts
  · exact hparts.elim
  · next d hd => exact ⟨hne, hstates, horigin, d, hd, hparts⟩

theorem State.PeerOk.of_none (h : s.PeerOk n) (hc : (s.line n).conn = none) :
    (s.line n).state = .closed ∨ (s.line n).state = .host ∨ (s.line n).state = .draining := by
  unfold State.PeerOk at h
  rw [hc] at h
  exact h

theorem State.peerOk_some {c d : Connection} (hc : (s.line n).conn = some c) (hd : (s.line c.peer).conn = some d) (hne : c.peer ≠ n)
    (hstates : pairedStates (s.line n) (s.line c.peer) c.role = true) (horigin : (s.line n).state ≠ .bridged → c.origin = .ordered)
    (hparts : pairedParts n c d = true) : s.PeerOk n := by
  unfold State.PeerOk
  rw [hc]
  dsimp only
  rw [hd]
  exact ⟨hne, hstates, horigin, hparts⟩

theorem State.peerOk_none (hc : (s.line n).conn = none)
    (h : (s.line n).state = .closed ∨ (s.line n).state = .host ∨ (s.line n).state = .draining) : s.PeerOk n := by
  unfold State.PeerOk
  rw [hc]
  exact h

theorem pairedParts_peer {c d : Connection} (h : pairedParts n c d = true) : d.peer = n := by
  simp only [pairedParts, Bool.and_eq_true, beq_iff_eq] at h
  exact h.1.1.1.1.1.1.1

theorem pairedStates_state {l p : Line} {r : Role} (h : pairedStates l p r = true) :
    l.state = .bridged ∧ p.state = .bridged ∨ r = .caller ∧ l.state = .calling ∧ p.state = .offered ∨
      r = .called ∧ l.state = .offered ∧ p.state = .calling := by
  simpa [pairedStates, or_assoc, and_assoc] using h

/-- A line outside calls and connections has no optional parts (R58). -/
theorem State.PeerOk.conn_none (h : s.PeerOk n) (hs : (s.line n).state = .closed ∨ (s.line n).state = .host ∨ (s.line n).state = .draining) :
    (s.line n).conn = none := by
  cases hc : (s.line n).conn with
  | none => rfl
  | some c =>
    obtain ⟨-, hstates, -⟩ := h.of_some hc
    rcases pairedStates_state hstates with ⟨hb, -⟩ | ⟨-, hb, -⟩ | ⟨-, hb, -⟩ <;> rw [hb] at hs <;> simp at hs

/-- A line in a call or connection has optional parts (R58). -/
theorem State.PeerOk.conn_some (h : s.PeerOk n) (hs : (s.line n).state = .bridged ∨ (s.line n).state = .calling ∨ (s.line n).state = .offered) :
    ∃ c, (s.line n).conn = some c := by
  cases hc : (s.line n).conn with
  | some c => exact ⟨c, rfl⟩
  | none => rcases h.of_none hc with hb | hb | hb <;> rw [hb] at hs <;> simp at hs
end

/-- The lines of a part that keeps its peers name each other. -/
theorem State.Sound.mutual {s : State} {d : Debts} (h : s.Sound d) {m n : LineNo} {c : Connection} (hc : (s.line m).conn = some c)
    (hn : c.peer = n) : ∃ e, (s.line n).conn = some e ∧ e.peer = m ∧ pairedParts m c e = true := by
  obtain ⟨-, -, -, e, he, hp⟩ := (h.lines m).peer.of_some hc
  exact ⟨e, hn ▸ he, pairedParts_peer hp, hp⟩

/-- A BRIDGED line and its peer are bridged with each other. -/
theorem State.Sound.bridged {s : State} {d : Debts} (h : s.Sound d) {x : LineNo} {c : Connection} (hx : (s.line x).state = .bridged)
    (hc : (s.line x).conn = some c) : s.Bridged x c.peer c := by
  obtain ⟨hne, hstates, -⟩ := (h.lines x).peer.of_some hc
  obtain ⟨e, he, hp, -⟩ := h.mutual hc rfl
  have hy : (s.line c.peer).state = .bridged := by
    rcases pairedStates_state hstates with ⟨-, hy⟩ | ⟨-, hb, -⟩ | ⟨-, hb, -⟩
    · exact hy
    all_goals rw [hx] at hb; cases hb
  exact ⟨hne.symm, hx, hy, hc, rfl, by rw [he]; exact congrArg some hp⟩

theorem State.Sound.conn_none {s : State} {d : Debts} (h : s.Sound d) {n : LineNo}
    (hs : (s.line n).state = .closed ∨ (s.line n).state = .host ∨ (s.line n).state = .draining) : (s.line n).conn = none :=
  (h.lines n).peer.conn_none hs

/-! ### Changes of some lines -/

theorem State.PortLaw.congr {s t : State} (hp : t.port = s.port) (h : s.PortLaw) : t.PortLaw := by
  rwa [State.PortLaw, hp]


/-- What a line's peer looks at. -/
def Line.face (l : Line) : LineState × Option Connection × List Entry := (l.state, l.conn, l.tq.entries)

theorem Line.face_eq_iff {l m : Line} : l.face = m.face ↔ l.state = m.state ∧ l.conn = m.conn ∧ l.tq.entries = m.tq.entries := by
  simp [Line.face]

theorem State.destination_congr {s t : State} {n : LineNo} (hs : (t.line n).state = (s.line n).state)
    (hc : (t.line n).conn = (s.line n).conn) : t.destination n = s.destination n := by
  unfold State.destination
  rw [hs, hc]

/-- A line stays sound where it and what it sees of its peer stay. -/
theorem State.SoundFor.congr {s t : State} {d e : Debts} {n : LineNo} (h : s.SoundFor d n) (hline : t.line n = s.line n)
    (hpeer : ∀ c, (s.line n).conn = some c → (t.line c.peer).face = (s.line c.peer).face) (hport : t.port = s.port)
    (hde : d.Within e n) : t.SoundFor e n := by
  have hdest : t.destination n = s.destination n := State.destination_congr (by rw [hline]) (by rw [hline])
  refine State.SoundFor.mono (d := d) ⟨⟨by rw [hline]; exact h.line, ?_, ?_, ?_⟩, by rw [hline]; exact h.served,
    by rw [hline]; exact h.undrained, by rw [hline]; exact h.watched, by rw [hline]; exact h.ready⟩ hde
  · cases hc : (s.line n).conn with
    | none => exact State.peerOk_none (by rw [hline, hc]) (by rw [hline]; exact h.peer.of_none hc)
    | some c =>
      obtain ⟨hstate, hconn, -⟩ := Line.face_eq_iff.mp (hpeer c hc)
      obtain ⟨hne, hstates, horigin, d, hd, hparts⟩ := h.peer.of_some hc
      refine State.peerOk_some (by rw [hline, hc]) (hconn.trans hd) hne ?_ (by rw [hline]; exact horigin) hparts
      simpa only [pairedStates, hline, hstate] using hstates
  · rw [hdest, hline, ← h.held]
    refine congrArg (s.line n).heldAt ?_
    cases hq : s.destination n with
    | rq m =>
      have hm : m = n := by
        unfold State.destination at hq
        split at hq <;> cases hq
        rfl
      rw [hm]
      exact congrArg (fun l : Line => l.rq.occupancy) hline
    | tq m =>
      obtain ⟨-, hm⟩ := (State.destination_eq_tq_iff s n m).mp hq
      obtain ⟨c, hc, rfl⟩ := Option.map_eq_some_iff.mp hm
      exact congrArg List.length (Line.face_eq_iff.mp (hpeer c hc)).2.2
  · rw [hport, hline]
    exact h.loading

/-- A change of some lines that no other line's peer is among, with the standing records judged apart. -/
theorem State.Sound.change {s t : State} {d e : Debts} (h : s.Sound d) (P : LineNo → Prop)
    (hpeers : ∀ n, ¬ P n → ∀ c, (s.line n).conn = some c → ¬ P c.peer) (hsame : ∀ n, ¬ P n → t.line n = s.line n)
    (hport : t.port = s.port) (hfor : ∀ n, P n → t.SoundFor e n) (hde : ∀ n, ¬ P n → d.Within e n)
    (hstanding : t.StandingLaw) (hrecords : ∀ i, RecordOk (t.record i)) (hquiet : t.Quiet e.record) : t.Sound e := by
  refine ⟨fun n => ?_, hstanding, hrecords, hquiet, State.PortLaw.congr hport h.port⟩
  by_cases hn : P n
  · exact hfor n hn
  · exact (h.lines n).congr (hsame n hn) (fun c hc => by rw [hsame _ (hpeers n hn c hc)]) hport (hde n hn)

/-- A line without optional parts is no line's peer. -/
theorem State.Sound.lone {s : State} {d : Debts} (h : s.Sound d) {x : LineNo} (hx : (s.line x).conn = none) :
    ∀ n, ¬ n = x → ∀ c, (s.line n).conn = some c → ¬ c.peer = x := by
  intro n _ c hc hp
  obtain ⟨e, he, -⟩ := h.mutual hc hp
  rw [hx] at he
  cases he

/-- Two lines that have no optional parts or name each other are the peers of no other line. -/
theorem State.Sound.pair {s : State} {d : Debts} (h : s.Sound d) {x y : LineNo} (hx : ∀ c, (s.line x).conn = some c → c.peer = y)
    (hy : ∀ c, (s.line y).conn = some c → c.peer = x) :
    ∀ n, ¬ (n = x ∨ n = y) → ∀ c, (s.line n).conn = some c → ¬ (c.peer = x ∨ c.peer = y) := by
  rintro n hn c hc (hp | hp)
  · obtain ⟨e, he, hen, -⟩ := h.mutual hc hp
    exact hn (.inr (hen.symm.trans (hx e he)))
  · obtain ⟨e, he, hen, -⟩ := h.mutual hc hp
    exact hn (.inl (hen.symm.trans (hy e he)))

/-- The standing law looks at the optional parts and the records (R134, R136, R141). -/
theorem State.StandingLaw.congr {s t : State} (h : s.StandingLaw) (hc : ∀ n, (t.line n).conn = (s.line n).conn)
    (hr : ∀ i, t.record i = s.record i) : t.StandingLaw := by
  simpa only [State.StandingLaw, State.ServesRecord, hc, hr] using h

/-- A change of one line that its peer does not see. -/
theorem State.Sound.modLine {s t : State} {d e : Debts} (h : s.Sound d) (x : LineNo) (hsame : ∀ n, n ≠ x → t.line n = s.line n)
    (hface : (t.line x).face = (s.line x).face) (hport : t.port = s.port) (hrecord : ∀ i, t.record i = s.record i)
    (hline : (t.line x).Sound)
    (hheld : (t.line x).heldAt (t.queue (t.destination x)).occupancy = (t.line x).inputHeld)
    (hserved : x ∉ e.tx → (t.line x).Served) (hundrained : x ∉ e.drain → (t.line x).Undrained)
    (hwatched : x ∉ e.monitor → (t.line x).Watched) (hready : x ∉ e.ready → (t.line x).ReadyOk)
    (hde : ∀ n, n ≠ x → d.Within e n) (hrec : ∀ n, n ∈ d.record → n ∈ e.record)
    (heligible : x ∈ e.record ∨ ((t.line x).ready = true → (s.line x).ready = true)) : t.Sound e := by
  obtain ⟨hstate, hconn, htq⟩ := Line.face_eq_iff.mp hface
  have hfaces : ∀ n, (t.line n).face = (s.line n).face := fun n => by
    by_cases hn : n = x
    · exact hn ▸ hface
    · rw [hsame n hn]
  have hconns : ∀ n, (t.line n).conn = (s.line n).conn := fun n => (Line.face_eq_iff.mp (hfaces n)).2.1
  refine ⟨fun n => ?_, h.standing.congr hconns hrecord, fun i => by rw [hrecord]; exact h.records i,
    h.quiet.of_eligible (fun i c hi => hrecord i ▸ hi) fun n hn he => ⟨hn ∘ hrec n, ?_⟩, State.PortLaw.congr hport h.port⟩
  · by_cases hn : n = x
    · subst hn
      have hx := h.lines n
      refine ⟨⟨hline, ?_, hheld, fun hl => hstate.trans (hx.loading (hport ▸ hl))⟩, hserved, hundrained, hwatched, hready⟩
      cases hc : (s.line n).conn with
      | none => exact State.peerOk_none (hconn.trans hc) (by rw [hstate]; exact hx.peer.of_none hc)
      | some c =>
        obtain ⟨hne, hstates, horigin, d, hd, hparts⟩ := hx.peer.of_some hc
        have hpeer := hsame c.peer hne
        refine State.peerOk_some (hconn.trans hc) (by rw [hpeer]; exact hd) hne ?_ (by rw [hstate]; exact horigin) hparts
        simpa only [pairedStates, hpeer, hstate] using hstates
    · exact (h.lines n).congr (hsame n hn) (fun c _ => hfaces c.peer) hport (hde n hn)
  · by_cases hn' : n = x
    · subst hn'
      obtain ⟨h1, h2, h3⟩ := he
      refine ⟨hstate.symm.trans h1, htq.symm.trans h2, heligible.elim (fun hm => absurd hm hn) fun hk => hk h3⟩
    · rw [← hsame n hn']
      exact he

end Sys2Proof.Machine

/-! PROOF. The shared operations keep the invariant behind O6: hold evaluations, changes of the queues, beginnings of transmitters,
and the connections that evaluations make. -/

namespace Sys2Proof.Machine

set_option Elab.async false

/-! ### A line's Hold Logic takes an occupancy -/

section
variable {l : Line} (k : Nat)

theorem Line.Sound.afterOccupancy (h : l.Sound) (hs : l.state ≠ .closed) : (l.afterOccupancy k).Sound := by
  obtain he | ⟨ht, -, c, he⟩ := l.afterOccupancy_eq_or k <;> rw [he]
  · exact { h with closed := fun hc => absurd hc hs }
  · exact { h with
      closed := fun hc => absurd hc hs
      spacing := by rw [h.spacing, ht]; rfl }

@[simp] theorem Line.afterOccupancy_outputHeld : (l.afterOccupancy k).outputHeld = l.outputHeld := by
  obtain he | ⟨-, -, c, he⟩ := l.afterOccupancy_eq_or k <;> rw [he] <;> rfl

theorem Line.afterOccupancy_tx_idle (h : (l.afterOccupancy k).tx = .idle) : l.tx = .idle := by
  by_contra hne
  exact l.afterOccupancy_tx_ne_idle k hne h

theorem Line.Served.afterOccupancy (h : l.Served) : (l.afterOccupancy k).Served := by
  intro ht
  rw [Line.afterOccupancy_outputHeld, Line.afterOccupancy_tq]
  exact ⟨l.afterOccupancy_codePending k ht, (h (l.afterOccupancy_tx_idle k ht)).2⟩

theorem Line.Undrained.afterOccupancy (h : l.Undrained) : (l.afterOccupancy k).Undrained := by
  intro hs
  rw [Line.afterOccupancy_state] at hs
  by_contra hd
  have hd : (l.afterOccupancy k).drained = true := by simpa using hd
  simp only [Line.drained, Bool.and_eq_true, beq_iff_eq, Line.afterOccupancy_tq] at hd
  have := h hs
  simp [Line.drained, hd.1, l.afterOccupancy_tx_idle k hd.2] at this

theorem Line.afterOccupancy_watched : (l.afterOccupancy k).Watched ↔ l.Watched := by
  simp only [Line.Watched, Line.afterOccupancy_conn, Line.afterOccupancy_state, Line.afterOccupancy_monitor]

theorem Line.afterOccupancy_readyOk : (l.afterOccupancy k).ReadyOk ↔ l.ReadyOk := by
  simp only [Line.ReadyOk, Line.afterOccupancy_state, Line.afterOccupancy_ready]

theorem Line.afterOccupancy_eligible : (l.afterOccupancy k).Eligible ↔ l.Eligible := by
  simp only [Line.Eligible, Line.afterOccupancy_state, Line.afterOccupancy_tq, Line.afterOccupancy_ready]

@[simp] theorem Line.afterOccupancy_face : (l.afterOccupancy k).face = l.face := by simp [Line.face]

/-- Input-held taken from an occupancy agrees with it (R43). -/
theorem Line.afterOccupancy_heldAt : (l.afterOccupancy k).heldAt k = (l.afterOccupancy k).inputHeld := by
  simp only [Line.heldAt, Line.afterOccupancy_hold, Line.afterOccupancy_inputHeld]
  split
  · rfl
  · split <;> rfl
end

theorem Line.heldAt_congr {l m : Line} (hh : l.hold = m.hold) (hi : l.inputHeld = m.inputHeld) (k : Nat) : l.heldAt k = m.heldAt k := by
  simp only [Line.heldAt, hh, hi]

/-- An empty destination is below every high mark, and so not held (R43, R53). -/
theorem Line.heldAt_zero {l : Line} (h : l.SettingsOk) : l.heldAt 0 = false := by
  obtain ⟨-, -, h2, -⟩ := h
  simp only [Line.heldAt]
  rw [if_neg (by omega), if_pos (by omega)]

/-- A busy transmitter is served. -/
theorem Line.served_of_busy {l : Line} (h : l.tx ≠ .idle) : l.Served := fun ht => absurd ht h

theorem Line.undrained_of_busy {l : Line} (h : l.tx ≠ .idle) : l.Undrained := fun _ => by simp [Line.drained, h]

theorem Line.undrained_of_entries {l : Line} (h : l.tq.entries ≠ []) : l.Undrained := fun _ => by simp [Line.drained, h]

theorem Line.undrained_of_state {l : Line} (h : l.state ≠ .draining) : l.Undrained := fun hs => absurd hs h

theorem Line.not_eligible_of_entries {l : Line} (h : l.tq.entries ≠ []) : ¬ l.Eligible := fun he => h he.2.1

theorem Line.not_eligible_of_state {l : Line} (h : l.state ≠ .host) : ¬ l.Eligible := fun he => h he.1

/-! ### Destinations -/

theorem State.destination_rq_iff {s : State} {n m : LineNo} (h : s.destination n = .rq m) : m = n := by
  unfold State.destination at h
  split at h <;> cases h
  rfl

/-- The occupancy of a destination is the same where the queues are. -/
theorem State.destination_occupancy {s t : State} {n : LineNo} (hs : (t.line n).state = (s.line n).state)
    (hc : (t.line n).conn = (s.line n).conn) (hq : ∀ q, s.destination n = q → (t.queue q).entries = (s.queue q).entries) :
    (t.queue (t.destination n)).occupancy = (s.queue (s.destination n)).occupancy := by
  rw [State.destination_congr hs hc]
  exact congrArg List.length (hq _ rfl)

section
variable {s : State} {d : Debts}

theorem State.Sound.mutual_map (h : s.Sound d) {m : LineNo} {c : Connection} (hc : (s.line m).conn = some c) :
    (s.line c.peer).conn.map (·.peer) = some m := by
  obtain ⟨e, he, hp, -⟩ := h.mutual hc rfl
  rw [he, Option.map_some, hp]

/-- The line whose destination is TQ n, and no other, takes a change of it (R30, R42, R44). -/
theorem State.feederSees_line {s : State} (hm : ∀ m c, (s.line m).conn = some c → (s.line c.peer).conn.map (·.peer) = some m)
    (n m : LineNo) : (s.feederSees n).line m =
      if s.destination m = .tq n then (s.line m).afterOccupancy (s.queue (.tq n)).occupancy else s.line m := by
  have hfeeder : s.destination m = .tq n → (s.line n).conn.map (·.peer) = some m := fun hd => by
    obtain ⟨-, hp⟩ := (State.destination_eq_tq_iff s m n).mp hd
    obtain ⟨c, hc, rfl⟩ := Option.map_eq_some_iff.mp hp
    exact hm m c hc
  unfold State.feederSees
  split
  · next hn => rw [if_neg]; intro hd; have := hfeeder hd; rw [hn] at this; cases this
  · next e he =>
    split
    · next hcond =>
      rw [State.line_modLine]
      by_cases hme : m = e.peer
      · rw [if_pos hme, if_pos (by rw [hme]; exact (State.destination_eq_tq_iff s e.peer n).mpr hcond), hme]
        rfl
      · rw [if_neg hme, if_neg]
        intro hd
        have := hfeeder hd
        rw [he] at this
        exact hme (Option.some.inj this).symm
    · next hcond =>
      rw [if_neg]
      intro hd
      have hp := hfeeder hd
      rw [he] at hp
      obtain rfl : e.peer = m := Option.some.inj hp
      exact hcond ((State.destination_eq_tq_iff s e.peer n).mp hd)

theorem State.feederSees_port (s : State) (n : LineNo) : (s.feederSees n).port = s.port := by
  obtain h | ⟨d, -, -, -, h⟩ := s.feederSees_cases n
  · rw [h]
  · rw [h]; rfl
end

/-! ### Changes of a TQ -/

section
variable {s : State} {tx drain record monitor ready : List LineNo}

/-- TQ n and transmitter n changed, and the change told to the feeder. -/
def State.tqChanged (s : State) (n : LineNo) (free : List Nat) (q : Queue) (x : TxState) (b : Timer) : State :=
  ((s.withFree free).modLine n fun l => { l with tq := q, tx := x, breakTimer := b }).feederSees n

section
variable (n : LineNo) (free : List Nat) (q : Queue) (x : TxState) (b : Timer)

theorem State.Sound.tqChanged_line {d : Debts} (h : s.Sound d) (m : LineNo) : (s.tqChanged n free q x b).line m =
    if m = n then { s.line n with tq := q, tx := x, breakTimer := b }
    else if s.destination m = .tq n then (s.line m).afterOccupancy q.occupancy else s.line m := by
  set t := (s.withFree free).modLine n fun l => { l with tq := q, tx := x, breakTimer := b } with ht
  have hstate : ∀ m, (t.line m).state = (s.line m).state := (s.withFree free).modLine_reads Line.state (by intro; rfl) n
  have hconn : ∀ m, (t.line m).conn = (s.line m).conn := (s.withFree free).modLine_reads Line.conn (by intro; rfl) n
  have hline := State.feederSees_line (s := t) (fun m c hc => by rw [hconn] at hc ⊢; exact h.mutual_map hc) n m
  rw [State.tqChanged, hline, State.destination_congr (hstate m) (hconn m)]
  by_cases hm : m = n
  · subst hm
    rw [if_neg, if_pos rfl, ht, State.line_modLine_same]
    · rfl
    · intro hd
      obtain ⟨-, hp⟩ := (State.destination_eq_tq_iff s m m).mp hd
      obtain ⟨c, hc, hcm⟩ := Option.map_eq_some_iff.mp hp
      exact ((h.lines m).peer.of_some hc).1 hcm
  · have hother : t.line m = s.line m := State.line_modLine_other _ _ hm
    have hq : t.queue (.tq n) = q := by
      rw [State.queue, ht, State.line_modLine_same]
    rw [if_neg hm, hother, hq]

theorem State.tqChanged_record (i : SlotNo) : (s.tqChanged n free q x b).record i = s.record i := by
  simp [State.tqChanged]

/-- A change of TQ n may leave its transmitter to begin, its drain to check and its record to evaluate. -/
theorem State.Sound.tqChanged (h : s.Sound ⟨tx, drain, record, monitor, ready⟩) (hclosed : (s.line n).state = .closed → q.entries = [])
    (hspacing : b.isSome = x.isSpacing) :
    (s.tqChanged n free q x b).Sound ⟨n :: tx, n :: drain, n :: record, monitor, ready⟩ := by
  have hline := h.tqChanged_line n free q x b
  set t := s.tqChanged n free q x b with ht
  have hn : t.line n = { s.line n with tq := q, tx := x, breakTimer := b } := by rw [hline, if_pos rfl]
  have hother : ∀ m, m ≠ n → t.line m = s.line m ∨ t.line m = (s.line m).afterOccupancy q.occupancy ∧ (s.line m).state = .bridged := by
    intro m hm
    rw [hline, if_neg hm]
    split
    · next hd => exact .inr ⟨rfl, ((State.destination_eq_tq_iff s m n).mp hd).1⟩
    · exact .inl rfl
  have hstate : ∀ m, (t.line m).state = (s.line m).state := fun m => by
    by_cases hm : m = n
    · rw [hm, hn]
    · obtain he | ⟨he, -⟩ := hother m hm <;> rw [he]
      exact Line.afterOccupancy_state _ _
  have hconn : ∀ m, (t.line m).conn = (s.line m).conn := fun m => by
    by_cases hm : m = n
    · rw [hm, hn]
    · obtain he | ⟨he, -⟩ := hother m hm <;> rw [he]
      exact Line.afterOccupancy_conn _ _
  have hrq : ∀ m, (t.line m).rq = (s.line m).rq := fun m => by
    by_cases hm : m = n
    · rw [hm, hn]
    · obtain he | ⟨he, -⟩ := hother m hm <;> rw [he]
      exact Line.afterOccupancy_rq _ _
  have htq : ∀ m, m ≠ n → (t.line m).tq = (s.line m).tq := fun m hm => by
    obtain he | ⟨he, -⟩ := hother m hm <;> rw [he]
    exact Line.afterOccupancy_tq _ _
  have hdest : ∀ m, t.destination m = s.destination m := fun m => State.destination_congr (hstate m) (hconn m)
  have hport : t.port = s.port := State.feederSees_port _ _
  have hpeer : ∀ m, t.PeerOk m := fun m => by
    cases hc : (s.line m).conn with
    | none => exact State.peerOk_none ((hconn m).trans hc) (by rw [hstate]; exact (h.lines m).peer.of_none hc)
    | some c =>
      obtain ⟨hne, hstates, horigin, e, he, hparts⟩ := (h.lines m).peer.of_some hc
      refine State.peerOk_some ((hconn m).trans hc) ((hconn _).trans he) hne ?_ (by rw [hstate]; exact horigin) hparts
      simpa only [pairedStates, hstate] using hstates
  have hloading : ∀ m, t.port.state = .loading → (t.line m).state = .closed := fun m hl => by
    rw [hstate]; exact (h.lines m).loading (hport ▸ hl)
  refine ⟨fun m => ?_, h.standing.congr hconn (s.tqChanged_record n free q x b),
    fun i => by rw [ht, State.tqChanged_record]; exact h.records i,
    h.quiet.of_eligible (fun i c hi => by rw [← hi, ht, State.tqChanged_record]) fun m hm he => ?_, State.PortLaw.congr hport h.port⟩
  · have hm := h.lines m
    by_cases hmn : m = n
    · subst hmn
      have hheld : (t.line m).heldAt (t.queue (t.destination m)).occupancy = (t.line m).inputHeld := by
        have hsame : (t.queue (t.destination m)).occupancy = (s.queue (s.destination m)).occupancy := by
          refine State.destination_occupancy (hstate m) (hconn m) fun p hp => ?_
          cases p with
          | rq k => exact congrArg Queue.entries (hrq k)
          | tq k =>
            obtain ⟨-, hk⟩ := (State.destination_eq_tq_iff s m k).mp hp
            obtain ⟨c, hc, rfl⟩ := Option.map_eq_some_iff.mp hk
            exact congrArg Queue.entries (htq _ (hm.peer.of_some hc).1)
        rw [hsame, hn]
        exact hm.held
      refine ⟨⟨?_, hpeer m, hheld, hloading m⟩, fun hx => absurd (List.mem_cons_self ..) hx,
        fun hx => absurd (List.mem_cons_self ..) hx, fun hx => ?_, fun hx => ?_⟩
      · rw [hn]
        exact { hm.line with
          closed := fun hc => by
            obtain ⟨hr, -, hrest⟩ := hm.line.closed hc
            exact ⟨hr, hclosed hc, hrest⟩
          spacing := hspacing }
      · rw [hn]; exact hm.watched hx
      · rw [hn]; exact hm.ready hx
    · have hsub : ∀ {L : List LineNo}, m ∉ n :: L → m ∉ L := fun hx => List.not_mem_of_not_mem_cons hx
      by_cases hd : s.destination m = .tq n
      · have hb := ((State.destination_eq_tq_iff s m n).mp hd).1
        have he : t.line m = (s.line m).afterOccupancy q.occupancy := by rw [hline, if_neg hmn, if_pos hd]
        refine ⟨⟨?_, hpeer m, ?_, hloading m⟩, fun hx => ?_, fun hx => ?_, fun hx => ?_, fun hx => ?_⟩
        · rw [he]; exact hm.line.afterOccupancy _ (by rw [hb]; decide)
        · rw [hdest, hd, he]
          have hq : t.queue (.tq n) = q := by rw [State.queue, hn]
          rw [hq]
          exact Line.afterOccupancy_heldAt _
        · rw [he]; exact (hm.served (hsub hx)).afterOccupancy _
        · rw [he]; exact (hm.undrained (hsub hx)).afterOccupancy _
        · rw [he]; exact (Line.afterOccupancy_watched _).mpr (hm.watched hx)
        · rw [he]; exact (Line.afterOccupancy_readyOk _).mpr (hm.ready hx)
      · have he : t.line m = s.line m := by rw [hline, if_neg hmn, if_neg hd]
        refine ⟨⟨by rw [he]; exact hm.line, hpeer m, ?_, hloading m⟩, fun hx => by rw [he]; exact hm.served (hsub hx),
          fun hx => by rw [he]; exact hm.undrained (hsub hx), fun hx => by rw [he]; exact hm.watched hx,
          fun hx => by rw [he]; exact hm.ready hx⟩
        have hsame : (t.queue (t.destination m)).occupancy = (s.queue (s.destination m)).occupancy := by
          refine State.destination_occupancy (hstate m) (hconn m) fun p hp => ?_
          cases p with
          | rq k => exact congrArg Queue.entries (hrq k)
          | tq k => exact congrArg Queue.entries (htq k fun hk => hd (hk ▸ hp))
        rw [hsame, he]
        exact hm.held
  · have hmn : m ≠ n := fun e => hm (e ▸ List.mem_cons_self ..)
    refine ⟨List.not_mem_of_not_mem_cons hm, ?_⟩
    obtain e | ⟨e, -⟩ := hother m hmn
    · rwa [e] at he
    · rw [e] at he; exact (Line.afterOccupancy_eligible _).mp he
end

/-- An entry stored in TQ n leaves its transmitter to begin. -/
theorem State.stored_eq (s : State) (n : LineNo) (e : Entry) : s.stored n e = s.tqChanged n ((s.line n).tq.freeAfter s.freeList)
    ((s.line n).tq.withEntry s.freeList e) (s.line n).tx (s.line n).breakTimer := by
  unfold State.stored State.tqChanged
  exact congrArg (State.feederSees · n) (State.modLine_congr rfl)

theorem State.Sound.stored (h : s.Sound ⟨tx, drain, record, monitor, ready⟩) {n : LineNo} (hs : (s.line n).state ≠ .closed) (e : Entry) :
    (s.stored n e).Sound ⟨n :: tx, drain, record, monitor, ready⟩ := by
  have hne : ((s.stored n e).line n).tq.entries ≠ [] := by simp
  refine State.Sound.pay_drain (n := n) (State.Sound.pay_record (n := n) ?_ (Line.not_eligible_of_entries hne))
    (Line.undrained_of_entries hne)
  rw [State.stored_eq]
  exact h.tqChanged n _ _ _ _ (fun hc => absurd hc hs) (h.lines n).line.spacing

theorem State.Sound.stored_line {d : Debts} (h : s.Sound d) (n : LineNo) (e : Entry) :
    (s.stored n e).line n = { s.line n with tq := (s.line n).tq.withEntry s.freeList e } := by
  rw [State.stored_eq, h.tqChanged_line, if_pos rfl]

theorem Line.begins_eq (l : Line) (q : Queue) (e : Entry) (h : l.SettingsOk) (hb : l.breakTimer.isSome = l.tx.isSpacing) (ht : l.tx = .idle) :
    ∃ x b, ({ l with tq := q } : Line).begins e = { l with tq := q, tx := x, breakTimer := b } ∧ x ≠ .idle ∧ b.isSome = x.isSpacing := by
  obtain ⟨htiming, -⟩ := h
  have hlength : l.settings.breakLength ≠ 0 := fun h0 => by
    have := (timingOk_iff _ _).mp htiming
    rw [h0] at this
    simp at this
  obtain ⟨-, hk⟩ | ⟨-, hk⟩ := ({ l with tq := q } : Line).begins_cases e
  · rw [if_neg hlength] at hk
    exact ⟨_, _, hk, by simp, rfl⟩
  · refine ⟨_, l.breakTimer, hk, by simp, ?_⟩
    rw [hb, ht]
    rfl

/-- The oldest entry begun leaves the record of its line to evaluate if the TQ is then empty. -/
theorem State.Sound.begun (h : s.Sound ⟨n :: tx, drain, record, monitor, ready⟩) (ht : (s.line n).tx = .idle)
    (hs : (s.line n).state ≠ .closed) (e : Entry) : (s.begun n e).Sound ⟨tx, drain, n :: record, monitor, ready⟩ := by
  have hn := (h.lines n).line
  obtain ⟨x, b, hbegins, hx, hb⟩ := Line.begins_eq (s.line n) (s.line n).tq.withoutOldest e hn.settings hn.spacing ht
  have heq : s.begun n e = s.tqChanged n (s.freeList ++ (s.line n).tq.returned) (s.line n).tq.withoutOldest x b := by
    unfold State.begun State.tqChanged
    exact congrArg (State.feederSees · n) (State.modLine_congr hbegins)
  have hbusy : ((s.begun n e).line n).tx ≠ .idle := State.begun_line_tx_ne_idle _ _ _
  have hserved := Line.served_of_busy hbusy
  refine State.Sound.pay_drain (n := n) (State.Sound.pay_tx (n := n) (State.Sound.pay_tx (n := n) ?_ hserved) hserved)
    (Line.undrained_of_busy hbusy)
  rw [heq]
  exact h.tqChanged n _ _ _ _ (fun hc => absurd hc hs) hb
end

end Sys2Proof.Machine

/-! PROOF. The shared operations keep the invariant behind O6, continued: connections that evaluations make, beginnings, drains,
changes of an RQ, and overruns. -/

namespace Sys2Proof.Machine

set_option Elab.async false

/-! ### Lines that become BRIDGED -/

theorem profileOk_monitorAtStart {c : Connection} (h : profileOk c.escCount c.guardTime = true) : MonitorOk (monitorAtStart c) c := by
  unfold monitorAtStart
  split
  · next hoff =>
    refine ⟨h, ?_, rfl, by simp, rfl⟩
    rcases hoff with hoff | hoff <;> simp [hoff]
  · next hon =>
    obtain ⟨hcount, hflag⟩ := not_or.mp hon
    have hflag : c.monitorFlag = true := by simpa using hflag
    unfold unmatched
    split
    · exact ⟨h, ⟨fun _ => ⟨hcount, hflag⟩, fun _ => nofun⟩, rfl, by simp, rfl, rfl⟩
    · next hg => exact ⟨h, ⟨fun _ => ⟨hcount, hflag⟩, fun _ => nofun⟩, rfl, by simp, rfl, hg, rfl⟩

section
variable {l : Line} (c : Connection) (k : Nat)

theorem Line.Sound.bridgedOn (h : l.Sound) (hs : l.state = .host ∨ l.state = .calling ∨ l.state = .offered) (ha : l.answerTimer = none)
    (hi : l.idleTimer = none) : (l.bridgedOn c k).Sound := by
  have hclosed : l.state ≠ .closed := by rcases hs with hs | hs | hs <;> rw [hs] <;> decide
  have hdrain : l.state ≠ .draining := by rcases hs with hs | hs | hs <;> rw [hs] <;> decide
  have hl : ({ l with state := .bridged, conn := some c } : Line).Sound := { h with
    closed := nofun
    receiver := ⟨fun hr => absurd (h.receiver.mp hr) hclosed, nofun⟩
    answering := fun ht => by rw [ha] at ht; cases ht
    draining := fun ht => absurd (h.draining ht) hdrain
    idling := fun ht => by rw [hi] at ht; cases ht
    tally := ⟨h.tally.1, fun ht => absurd (h.tally.2 ht) hdrain⟩ }
  exact { hl.afterOccupancy k nofun with }

theorem Line.Served.bridgedOn (h : l.Served) : (l.bridgedOn c k).Served :=
  Line.Served.afterOccupancy (l := { l with state := .bridged, conn := some c }) k h

@[simp] theorem Line.bridgedOn_tq : (l.bridgedOn c k).tq = l.tq := Line.afterOccupancy_tq _ k
@[simp] theorem Line.bridgedOn_ready : (l.bridgedOn c k).ready = l.ready := Line.afterOccupancy_ready _ k
@[simp] theorem Line.bridgedOn_conn_eq : (l.bridgedOn c k).conn = some c := Line.afterOccupancy_conn _ k
@[simp] theorem Line.bridgedOn_monitor : (l.bridgedOn c k).monitor = monitorAtStart c := rfl

theorem Line.bridgedOn_heldAt : (l.bridgedOn c k).heldAt k = (l.bridgedOn c k).inputHeld :=
  Line.afterOccupancy_heldAt (l := { l with state := .bridged, conn := some c }) k
end

/-- A BRIDGED line that names its BRIDGED peer and is named by it. -/
theorem State.soundFor_bridged {t : State} {d : Debts} {x y : LineNo} {c e : Connection} (hxy : x ≠ y) (hc : (t.line x).conn = some c)
    (he : (t.line y).conn = some e) (hp : c.peer = y) (hx : (t.line x).state = .bridged) (hy : (t.line y).state = .bridged)
    (hparts : pairedParts x c e = true) (hline : (t.line x).Sound)
    (hheld : (t.line x).heldAt (t.line y).tq.entries.length = (t.line x).inputHeld) (hport : t.port.state ≠ .loading)
    (hserved : x ∉ d.tx → (t.line x).Served) (hmonitor : MonitorOk (t.line x).monitor c) (hready : (t.line x).ready = true) :
    t.SoundFor d x where
  line := hline
  peer := State.peerOk_some hc (by rw [hp]; exact he) (hp ▸ hxy.symm) (by simp [pairedStates, hp, hx, hy]) (fun h => absurd hx h) hparts
  held := by
    rw [State.destination_of_bridged hx hc, hp]
    exact hheld
  loading h := absurd h hport
  served := hserved
  undrained _ := Line.undrained_of_state (by rw [hx]; decide)
  watched _ := by
    unfold Line.Watched
    rw [hc]
    exact ⟨hmonitor.1, by rw [if_pos hx]; exact hmonitor⟩
  ready _ := ⟨fun _ => hready, fun _ => hready, fun h => by rw [hx] at h; cases h⟩

/-- Two lines, neither CLOSED nor DRAINING, that become BRIDGED with each other, the first as the caller (R82, R141). -/
theorem State.soundFor_bridgedOn {t : State} {d : Debts} {x y : LineNo} {c e : Connection} {lx ly : Line} (hxy : x ≠ y)
    (hx : t.line x = { lx.bridgedOn c ly.tq.entries.length with idleTimer := idleTimerOf c.idleLimit })
    (hy : t.line y = ly.bridgedOn e lx.tq.entries.length) (hpc : c.peer = y) (hpe : e.peer = x) (hcaller : c.role = .caller)
    (hce : pairedParts x c e = true) (hec : pairedParts y e c = true) (hprofile : profileOk c.escCount c.guardTime = true)
    (hlx : lx.Sound) (hly : ly.Sound) (hsx : lx.state = .host ∨ lx.state = .calling ∨ lx.state = .offered)
    (hsy : ly.state = .host ∨ ly.state = .calling ∨ ly.state = .offered) (hax : lx.answerTimer = none) (hay : ly.answerTimer = none)
    (hservedx : x ∉ d.tx → lx.Served) (hservedy : y ∉ d.tx → ly.Served) (hrx : lx.ready = true) (hry : ly.ready = true)
    (hport : t.port.state ≠ .loading) : t.SoundFor d x ∧ t.SoundFor d y := by
  have hidle : ∀ {l : Line}, l.Sound → l.state = .host ∨ l.state = .calling ∨ l.state = .offered → l.idleTimer = none := by
    intro l hl hs
    refine Option.not_isSome_iff_eq_none.mp fun ht => ?_
    have := (hl.idling ht).1
    rcases hs with hs | hs | hs <;> rw [hs] at this <;> cases this
  have hx' := hlx.bridgedOn c ly.tq.entries.length hsx hax (hidle hlx hsx)
  have hy' := hly.bridgedOn e lx.tq.entries.length hsy hay (hidle hly hsy)
  have hcx : (t.line x).conn = some c := by rw [hx]; exact Line.bridgedOn_conn_eq _ _
  have hcy : (t.line y).conn = some e := by rw [hy]; exact Line.bridgedOn_conn_eq _ _
  have hbx : (t.line x).state = .bridged := by rw [hx]; exact Line.bridgedOn_state ..
  have hby : (t.line y).state = .bridged := by rw [hy]; exact Line.bridgedOn_state ..
  have htx : (t.line x).tq = lx.tq := by rw [hx]; exact Line.bridgedOn_tq _ _
  have hty : (t.line y).tq = ly.tq := by rw [hy]; exact Line.bridgedOn_tq _ _
  have hprofile' : profileOk e.escCount e.guardTime = true := by
    simp only [pairedParts, Bool.and_eq_true, beq_iff_eq] at hce
    obtain ⟨⟨⟨⟨-, hcount⟩, hguard⟩, -⟩, -⟩ := hce
    rw [hcount, hguard]
    exact hprofile
  refine ⟨State.soundFor_bridged hxy hcx hcy hpc hbx hby hce ?_ ?_ hport (fun h => ?_) ?_ ?_,
    State.soundFor_bridged hxy.symm hcy hcx hpe hby hbx hec ?_ ?_ hport (fun h => ?_) ?_ ?_⟩
  · rw [hx]
    exact { hx' with idling := fun _ => ⟨Line.bridgedOn_state .., by rw [Line.bridgedOn_conn_eq, Option.map_some, hcaller]⟩ }
  · rw [hty, hx]; exact Line.bridgedOn_heldAt _ _
  · rw [hx]; exact (hservedx h).bridgedOn _ _
  · rw [hx]; exact profileOk_monitorAtStart hprofile
  · rw [hx]; exact (Line.bridgedOn_ready _ _).trans hrx
  · rw [hy]; exact hy'
  · rw [htx, hy]; exact Line.bridgedOn_heldAt _ _
  · rw [hy]; exact (hservedy h).bridgedOn _ _
  · rw [hy]; exact profileOk_monitorAtStart hprofile'
  · rw [hy]; exact (Line.bridgedOn_ready _ _).trans hry

/-! ### Evaluations -/

theorem pairedParts_standing (c : Contents) (i : SlotNo) :
    pairedParts c.lineA (standingPart c i .caller) (standingPart c i .called) = true ∧
      pairedParts c.lineB (standingPart c i .called) (standingPart c i .caller) = true := by
  simp [pairedParts, standingPart]

theorem StandingLaw.lines_ne {s : State} (h : s.StandingLaw) {i : SlotNo} {c : Contents} (hi : s.record i = .armed c) :
    c.lineA ≠ c.lineB := by
  have := h.1 i
  rw [hi] at this
  exact this

section
variable {s t : State} {tx drain record monitor ready : List LineNo} {n : LineNo}

/-- An establishment keeps the standing law (R134, R141). -/
theorem State.StandingLaw.withConnection (h : s.StandingLaw) {i : SlotNo} {c : Contents} (hi : s.record i = .armed c)
    (ha : (s.line c.lineA).conn = none) (hb : (s.line c.lineB).conn = none) : (s.withConnection i c).StandingLaw := by
  have hab := StandingLaw.lines_ne h hi
  obtain ⟨hrecords, hdisjoint, horigins⟩ := h
  have hrecord : ∀ j, (s.withConnection i c).record j = if j = i then .active c else s.record j := fun j =>
    State.record_setRecord _ _ _ _
  have hreserves : ∀ j n, reserves ((s.withConnection i c).record j) n = reserves (s.record j) n := fun j n => by
    rw [hrecord]
    split
    · next e => rw [e, hi]; rfl
    · rfl
  have hconnA : ((s.withConnection i c).line c.lineA).conn = some (standingPart c i .caller) := by
    rw [s.withConnection_line_lineA i hab]; exact Line.bridgedOn_conn_eq _ _
  have hconnB : ((s.withConnection i c).line c.lineB).conn = some (standingPart c i .called) := by
    rw [s.withConnection_line_lineB i hab]; exact Line.bridgedOn_conn_eq _ _
  have hother : ∀ n, (s.line n).conn ≠ none → ((s.withConnection i c).line n).conn = (s.line n).conn := fun n hn => by
    have hna : n ≠ c.lineA := fun e => hn (by rw [e]; exact ha)
    have hnb : n ≠ c.lineB := fun e => hn (by rw [e]; exact hb)
    rw [s.withConnection_line_other i hna hnb]
  refine ⟨fun j => ?_, fun j k n => by rw [hreserves, hreserves]; exact hdisjoint j k n, fun n j hj => ?_⟩
  · rw [hrecord]
    by_cases e : j = i
    · rw [if_pos e]
      exact ⟨hab, by rw [hconnA, e], by rw [hconnB, e]⟩
    · rw [if_neg e]
      have hj := hrecords j
      cases hr : s.record j with
      | empty => trivial
      | idle c' => rw [hr] at hj; exact hj
      | armed c' => rw [hr] at hj; exact hj
      | active c' =>
        rw [hr] at hj
        obtain ⟨hne, hsa, hsb⟩ := hj
        exact ⟨hne, by rw [hother _ (by rw [hsa]; simp)]; exact hsa, by rw [hother _ (by rw [hsb]; simp)]; exact hsb⟩
  · by_cases hna : n = c.lineA
    · rw [hna, hconnA] at hj
      cases hj
      exact ⟨c, by rw [hrecord, if_pos rfl], .inl hna⟩
    · by_cases hnb : n = c.lineB
      · rw [hnb, hconnB] at hj
        cases hj
        exact ⟨c, by rw [hrecord, if_pos rfl], .inr hnb⟩
      · rw [s.withConnection_line_other i hna hnb] at hj
        obtain ⟨c', hc', hn⟩ := horigins n j hj
        refine ⟨c', ?_, hn⟩
        rw [hrecord, if_neg]
        · exact hc'
        · intro e
          rw [e, hi] at hc'
          cases hc'

/-- The connection of an ARMED record whose conditions hold (R141). -/
theorem State.Sound.withConnection (h : s.Sound ⟨tx, drain, n :: record, monitor, ready⟩) {i : SlotNo} {c : Contents}
    (hi : s.record i = .armed c) (hn : c.lineA = n ∨ c.lineB = n) (hc : s.Conditions c) :
    (s.withConnection i c).Sound ⟨tx, drain, record, monitor, ready⟩ := by
  obtain ⟨⟨hsa, hta, hra⟩, hsb, htb, hrb⟩ := (s.conditions_iff c).mp hc
  have hab := StandingLaw.lines_ne h.standing hi
  have hca := h.conn_none (.inr (.inl hsa))
  have hcb := h.conn_none (.inr (.inl hsb))
  have hok : profileOk c.escCount c.guardTime = true := by
    have := h.records i
    rw [hi] at this
    exact this.2
  have hport : s.port.state ≠ .loading := fun hl => by
    have := (h.lines c.lineA).loading hl
    rw [hsa] at this
    cases this
  obtain ⟨hpa, hpb⟩ := pairedParts_standing c i
  have hanswer : ∀ m, (s.line m).state = .host → (s.line m).answerTimer = none := fun m hm =>
    Option.not_isSome_iff_eq_none.mp fun ht => by
      have := (h.lines m).line.answering ht
      rw [hm] at this
      cases this
  obtain ⟨hforA, hforB⟩ := State.soundFor_bridgedOn (t := s.withConnection i c) (d := ⟨tx, drain, record, monitor, ready⟩) hab
    (by rw [htb]; exact s.withConnection_line_lineA i hab) (by rw [hta]; exact s.withConnection_line_lineB i hab) rfl rfl rfl hpa hpb hok
    (h.lines _).line (h.lines _).line (.inl hsa) (.inl hsb) (hanswer _ hsa) (hanswer _ hsb) (h.lines _).served (h.lines _).served
    hra hrb hport
  have hrecord : ∀ j, (s.withConnection i c).record j = if j = i then .active c else s.record j := fun j =>
    State.record_setRecord _ _ _ _
  refine h.change (fun m => m = c.lineA ∨ m = c.lineB) (h.pair (fun e he => by rw [hca] at he; cases he) fun e he => by rw [hcb] at he; cases he)
    (fun m hm => s.withConnection_line_other i (fun e => hm (.inl e)) fun e => hm (.inr e)) rfl ?_ (fun m _ => ⟨id, id, id, id⟩)
    (h.standing.withConnection hi hca hcb) (fun j => ?_) ?_
  · rintro m (rfl | rfl)
    · exact hforA
    · exact hforB
  · rw [hrecord]
    have := h.records i
    rw [hi] at this
    split
    · exact this
    · exact h.records j
  · intro j c' hj ha hb hcond
    rw [hrecord] at hj
    split at hj
    · cases hj
    · next hji =>
      have hnot : ∀ m, m = c.lineA ∨ m = c.lineB → ¬ reserves (s.record j) m = true := fun m hm hres =>
        hji (h.standing.2.1 j i m hres (by rw [hi]; exact reserves_armed.mpr (hm.imp Eq.symm Eq.symm)))
      rw [hj] at hnot
      have hlines : ∀ m, c'.lineA = m ∨ c'.lineB = m → m ≠ c.lineA ∧ m ≠ c.lineB := fun m hm =>
        ⟨fun e => hnot m (.inl e) (reserves_armed.mpr hm), fun e => hnot m (.inr e) (reserves_armed.mpr hm)⟩
      have hkeep : ∀ m, c'.lineA = m ∨ c'.lineB = m → (s.withConnection i c).line m = s.line m := fun m hm =>
        s.withConnection_line_other i (hlines m hm).1 (hlines m hm).2
      have hnew : ∀ m, c'.lineA = m ∨ c'.lineB = m → m ≠ n := fun m hm e => by
        rcases hn with hn | hn
        · exact (hlines m hm).1 (e.trans hn.symm)
        · exact (hlines m hm).2 (e.trans hn.symm)
      obtain ⟨hea, heb⟩ := (State.conditions_iff _ c').mp hcond
      rw [hkeep _ (.inl rfl)] at hea
      rw [hkeep _ (.inr rfl)] at heb
      exact h.quiet j c' hj (List.not_mem_cons_of_ne_of_not_mem (hnew _ (.inl rfl)) ha)
        (List.not_mem_cons_of_ne_of_not_mem (hnew _ (.inr rfl)) hb) ((s.conditions_iff c').mpr ⟨hea, heb⟩)

/-- The evaluation of a line's record leaves it quiet (R140). -/
theorem State.Sound.evaluated (h : s.Sound ⟨tx, drain, n :: record, monitor, ready⟩) (he : s.Evaluated t n) :
    t.Sound ⟨tx, drain, record, monitor, ready⟩ := by
  by_cases hex : ∃ i c, s.record i = .armed c ∧ (c.lineA = n ∨ c.lineB = n) ∧ s.Conditions c
  · obtain ⟨i, c, hi, hn, hc⟩ := hex
    rw [he.2 i c hi hn (StandingLaw.lines_ne h.standing hi) (fun j hj => ?_) hc]
    · exact h.withConnection hi hn hc
    · by_contra hres
      exact hj (h.standing.2.1 j i n (by simpa using hres) (by rw [hi]; exact reserves_armed.mpr hn))
  · have hnone : ∀ i c, s.record i = .armed c → c.lineA = n ∨ c.lineB = n → ¬ s.Conditions c := fun i c hi hn hc => hex ⟨i, c, hi, hn, hc⟩
    rw [he.1 hnone]
    refine ⟨fun m => (h.lines m).mono ⟨id, id, id, id⟩, h.standing, h.records, fun i c hi ha hb => ?_, h.port⟩
    by_cases hn : c.lineA = n ∨ c.lineB = n
    · exact hnone i c hi hn
    · obtain ⟨hna, hnb⟩ := not_or.mp hn
      exact h.quiet i c hi (List.not_mem_cons_of_ne_of_not_mem hna ha) (List.not_mem_cons_of_ne_of_not_mem hnb hb)

theorem State.Sound.evaluateLine (h : s.Sound ⟨tx, drain, n :: record, monitor, ready⟩) :
    (s.evaluateLine n).Sound ⟨tx, drain, record, monitor, ready⟩ := h.evaluated (s.evaluateLine_evaluated n)
end

/-! ### Changes that no peer sees -/

/-- A change of one line that keeps all that its peer and its Hold Logic look at. -/
theorem State.Sound.modLine_keeps {s : State} {d e : Debts} (h : s.Sound d) (x : LineNo) {f : Line → Line}
    (hface : (f (s.line x)).face = (s.line x).face) (hrq : (f (s.line x)).rq.entries = (s.line x).rq.entries)
    (hhold : (f (s.line x)).hold = (s.line x).hold) (hheld : (f (s.line x)).inputHeld = (s.line x).inputHeld)
    (hline : (f (s.line x)).Sound) (hserved : x ∉ e.tx → (f (s.line x)).Served) (hundrained : x ∉ e.drain → (f (s.line x)).Undrained)
    (hwatched : x ∉ e.monitor → (f (s.line x)).Watched) (hready : x ∉ e.ready → (f (s.line x)).ReadyOk)
    (hde : ∀ n, n ≠ x → d.Within e n) (hrec : ∀ n, n ∈ d.record → n ∈ e.record)
    (heligible : x ∈ e.record ∨ ((f (s.line x)).ready = true → (s.line x).ready = true)) : (s.modLine x f).Sound e := by
  have hx : (s.modLine x f).line x = f (s.line x) := State.line_modLine_same s x f
  obtain ⟨hstate, hconn, htq⟩ := Line.face_eq_iff.mp hface
  refine h.modLine x (fun n hn => State.line_modLine_other _ _ hn) (by rw [hx]; exact hface) rfl (fun _ => rfl) (by rw [hx]; exact hline) ?_
    (by rw [hx]; exact hserved) (by rw [hx]; exact hundrained) (by rw [hx]; exact hwatched) (by rw [hx]; exact hready) hde hrec
    (by rw [hx]; exact heligible)
  have hocc : ((s.modLine x f).queue ((s.modLine x f).destination x)).occupancy = (s.queue (s.destination x)).occupancy := by
    refine State.destination_occupancy (by rw [hx]; exact hstate) (by rw [hx]; exact hconn) fun q hq => ?_
    cases q with
    | rq m =>
      obtain rfl := State.destination_rq_iff hq
      rw [State.queue, hx]; exact hrq
    | tq m =>
      by_cases hm : m = x
      · rw [hm, State.queue, hx]; exact htq
      · exact congrArg (fun l : Line => l.tq.entries) (State.line_modLine_other s f hm)
  rw [hocc, hx, Line.heldAt_congr hhold hheld, hheld]
  exact (h.lines x).held

/-- A change of one line that only the line itself could notice. -/
theorem State.Sound.modLine_quiet {s : State} {d : Debts} (h : s.Sound d) (x : LineNo) {f : Line → Line}
    (hface : (f (s.line x)).face = (s.line x).face) (hrq : (f (s.line x)).rq.entries = (s.line x).rq.entries)
    (hhold : (f (s.line x)).hold = (s.line x).hold) (hheld : (f (s.line x)).inputHeld = (s.line x).inputHeld)
    (hline : (f (s.line x)).Sound) (hserved : (s.line x).Served → (f (s.line x)).Served)
    (hundrained : (s.line x).Undrained → (f (s.line x)).Undrained) (hmonitor : (f (s.line x)).monitor = (s.line x).monitor)
    (hready : (f (s.line x)).ready = (s.line x).ready) : (s.modLine x f).Sound d := by
  obtain ⟨hstate, hconn, -⟩ := Line.face_eq_iff.mp hface
  refine h.modLine_keeps x hface hrq hhold hheld hline (hserved ∘ (h.lines x).served) (hundrained ∘ (h.lines x).undrained)
    (fun hx => ?_) (fun hx => ?_) (fun n _ => .refl d n) (fun _ => id) (.inr fun hr => hready ▸ hr)
  · simpa only [Line.Watched, hconn, hstate, hmonitor] using (h.lines x).watched hx
  · simpa only [Line.ReadyOk, hstate, hready] using (h.lines x).ready hx

/-- The Host Port, and all else that no law of lines and records looks at. -/
theorem State.Sound.of_lines {s t : State} {d : Debts} (h : s.Sound d) (hl : t.lines = s.lines) (hs : t.standing = s.standing)
    (hp : t.port = s.port) : t.Sound d := by
  have hline : ∀ n, t.line n = s.line n := fun n => congrArg (·.get n) hl
  have hrecord : ∀ i, t.record i = s.record i := fun i => congrArg (·.get i) hs
  exact ⟨fun n => (h.lines n).congr (hline n) (fun c _ => by rw [hline]) hp (.refl d n),
    h.standing.congr (fun n => by rw [hline]) hrecord, fun i => by rw [hrecord]; exact h.records i,
    h.quiet.of_eligible (fun i c hi => hrecord i ▸ hi) fun n hn he => ⟨hn, hline n ▸ he⟩, State.PortLaw.congr hp h.port⟩

theorem State.Sound.post {s : State} {d : Debts} (h : s.Sound d) (k : EventKind) (a b v : Byte) : (s.post k a b v).Sound d :=
  h.of_lines rfl rfl rfl

theorem State.Sound.leave {s : State} {d : Debts} (h : s.Sound d) (r : Result) : (s.leave r).Sound d := h.of_lines rfl rfl rfl

theorem State.Sound.modHost {s : State} {d : Debts} (h : s.Sound d) (f : HostPort → HostPort) : (s.modHost f).Sound d := h.of_lines rfl rfl rfl

theorem State.Sound.withFree {s : State} {d : Debts} (h : s.Sound d) (free : List Nat) : (s.withFree free).Sound d := h.of_lines rfl rfl rfl

/-! ### Beginnings -/

section
variable {s : State} {tx drain record monitor ready : List LineNo} {n : LineNo}

theorem State.Sound.codeBegun (h : s.Sound ⟨n :: tx, drain, record, monitor, ready⟩) (ht : (s.line n).tx = .idle)
    (hc : (s.line n).codePending = true) : (s.codeBegun n).Sound ⟨tx, drain, record, monitor, ready⟩ := by
  have hn := h.lines n
  have hopen : (s.line n).state ≠ .closed := fun hs => by
    obtain ⟨-, -, hi, ha, -⟩ := hn.line.closed hs
    simp [Line.codePending, hi, ha, announcedHeld] at hc
  refine h.modLine_keeps n rfl rfl rfl rfl { hn.line with
      closed := fun hs => absurd hs hopen
      spacing := by rw [hn.line.spacing, ht]; rfl }
    (fun _ => Line.served_of_busy nofun) (fun _ => Line.undrained_of_busy nofun) hn.watched hn.ready
    (fun m hm => ⟨fun hx => (List.mem_cons.mp hx).resolve_left hm, id, id, id⟩) (fun _ => id) (.inr id)

/-- An idle transmitter begins what it may begin (R9, R48). -/
theorem State.Sound.kickTx (h : s.Sound ⟨n :: tx, drain, record, monitor, ready⟩) :
    (s.kickTx n).Sound ⟨tx, drain, record, monitor, ready⟩ := by
  by_cases hcan : (s.line n).CanBegin
  · have hbusy := State.mayBegin_line_tx hcan
    rw [State.kickTx_of_canBegin hcan]
    obtain ⟨e, rest, he, hb⟩ := State.mayBegin_canBegin hcan
    have hopen : (s.line n).state ≠ .closed := fun hs => hcan.2.2.2 ((h.lines n).line.closed hs).2.1
    have hbegun := h.begun hcan.1 hopen e
    rw [hb]
    split
    · exact hbegun.evaluateLine
    · next hne => exact hbegun.pay_record (Line.not_eligible_of_entries hne)
  · rw [State.kickTx_of_not_canBegin hcan]
    unfold State.mayBegin
    split
    · next ht => exact h.pay_tx (Line.served_of_busy ht)
    · next ht =>
      have ht := not_not.mp ht
      split
      · next hc => exact h.codeBegun ht hc
      · next hc =>
        have hc : (s.line n).codePending = false := by simpa using hc
        split
        · next ho => exact h.pay_tx fun _ => ⟨hc, .inl ho⟩
        · next ho =>
          split
          · next he => exact h.pay_tx fun _ => ⟨hc, .inr he⟩
          · next e rest he => exact absurd ⟨ht, hc, by simpa using ho, by rw [he]; simp⟩ hcan

theorem State.Sound.mayBegin_bridged (h : s.Sound ⟨n :: tx, drain, record, monitor, ready⟩) (hb : (s.line n).state = .bridged) :
    (s.mayBegin n).Sound ⟨tx, drain, record, monitor, ready⟩ := by
  rw [← State.kickTx_of_bridged hb]
  exact h.kickTx

/-! ### Drains -/

/-- A line returned to HOST may have its record to evaluate (R113). -/
theorem State.Sound.returned (h : s.Sound ⟨tx, drain, record, monitor, ready⟩) (hs : (s.line n).state = .draining) :
    (s.returned n).Sound ⟨tx, drain, n :: record, monitor, ready⟩ := by
  have hn := h.lines n
  have hc := h.conn_none (.inr (.inr hs))
  have hline : (s.returned n).line n = { s.line n with state := .host, drainTimer := none, tally := 0 } := by
    rw [State.returned_line, State.line_modLine_same]
  have hsame : ∀ m, ¬ m = n → (s.returned n).line m = s.line m := fun m hm => by
    rw [State.returned_line, State.line_modLine_other _ _ hm]
  have hconns : ∀ m, ((s.returned n).line m).conn = (s.line m).conn := fun m => by
    rw [State.returned_line]; exact s.modLine_reads Line.conn (by intro; rfl) n m
  refine h.change (· = n) (h.lone hc) hsame rfl ?_ (fun m hm => ⟨id, id, id, id⟩) (h.standing.congr hconns fun _ => rfl) h.records ?_
  · rintro m rfl
    have hdest : (s.returned m).destination m = .rq m := State.destination_of_ne (by rw [hline]; simp)
    have hdest' : s.destination m = .rq m := State.destination_of_ne (by rw [hs]; decide)
    have hport : s.port.state ≠ .loading := fun hl => by have := hn.loading hl; rw [hs] at this; cases this
    refine ⟨⟨?_, State.peerOk_none (by rw [hline]; exact hc) (by rw [hline]; exact .inr (.inl rfl)), ?_, fun hl => absurd hl hport⟩,
      fun hx => ?_, fun _ => ?_, fun hx => ?_, fun _ => ?_⟩
    · rw [hline]
      exact { hn.line with
        closed := nofun
        receiver := ⟨fun hr => (by have := hn.line.receiver.mp hr; rw [hs] at this; cases this), nofun⟩
        answering := fun ht => by have := hn.line.answering ht; rw [hs] at this; cases this
        draining := nofun
        idling := fun ht => by have := (hn.line.idling ht).1; rw [hs] at this; cases this
        tally := ⟨Nat.zero_le _, fun ht => absurd rfl ht⟩ }
    · have := hn.held
      rw [hdest'] at this
      rw [hdest, State.queue, hline]
      exact this
    · rw [hline]; exact hn.served hx
    · rw [hline]; exact Line.undrained_of_state nofun
    · have := hn.watched hx
      rw [hline]
      simp only [Line.Watched, hc] at this ⊢
      exact this
    · rw [hline]; exact ⟨nofun, nofun, nofun⟩
  · refine h.quiet.of_eligible (fun _ _ => id) fun m hm he => ⟨List.not_mem_of_not_mem_cons hm, ?_⟩
    rwa [hsame m fun e => hm (e ▸ List.mem_cons_self ..)] at he

/-- The drain check of a line (R110, R113, R140). -/
theorem State.Sound.drainChecked {t : State} (h : s.Sound ⟨tx, n :: drain, record, monitor, ready⟩) (hd : s.DrainChecked t n) :
    t.Sound ⟨tx, drain, record, monitor, ready⟩ := by
  unfold State.DrainChecked at hd
  split at hd
  · next hdone =>
    have hhost : ((s.returned n).line n).state = .host := by rw [State.returned_line, State.line_modLine_same]
    exact ((h.returned hdone.1).pay_drain (Line.undrained_of_state (by rw [hhost]; decide))).evaluated hd
  · next hnot =>
    rw [hd]
    refine h.pay_drain fun hs => ?_
    by_contra hdrained
    have hdrained : (s.line n).drained = true := by simpa using hdrained
    simp only [Line.drained, Bool.and_eq_true, List.isEmpty_iff, beq_iff_eq] at hdrained
    exact hnot ⟨hs, hdrained⟩

theorem State.Sound.drainCheck (h : s.Sound ⟨tx, n :: drain, record, monitor, ready⟩) :
    (s.drainCheck n).Sound ⟨tx, drain, record, monitor, ready⟩ := h.drainChecked (s.drainCheck_drainChecked n)
end

end Sys2Proof.Machine

/-! PROOF. Traffic keeps the invariant behind O6: changes of an RQ, overruns, appends, discards, cut drains and hand-overs. -/

namespace Sys2Proof.Machine

set_option Elab.async false

section
variable {s t : State} {tx drain record monitor ready : List LineNo} {n : LineNo}

/-! ### Changes of an RQ -/

/-- A change of RQ n, told to the line's own Hold Logic while the line is not BRIDGED (R30, R42). -/
theorem State.Sound.rqChanged {d : Debts} (h : s.Sound d) (hs : (s.line n).state ≠ .closed) (free : List Nat) (q : Queue) (o : Bool) :
    (((s.withFree free).modLine n fun l => { l with rq := q, overrun := o }).tellHold (.rq n)).Sound d := by
  have hn := h.lines n
  set u := (s.withFree free).modLine n fun l => { l with rq := q, overrun := o } with hu
  have hun : u.line n = { s.line n with rq := q, overrun := o } := State.line_modLine_same ..
  have hline : (u.line n).Sound := by
    rw [hun]
    exact { hn.line with closed := fun hc => absurd hc hs }
  by_cases hb : (s.line n).state = .bridged
  · obtain ⟨c, hc⟩ := hn.peer.conn_some (.inl hb)
    rw [State.tellHold_of_none (State.holdNeighbour_rq_of_bridged (by rw [hun]; exact hb) (by rw [hun]; exact hc ▸ Option.some_ne_none c))]
    refine h.modLine n (fun m hm => State.line_modLine_other _ _ hm) (by rw [hun]; rfl) rfl (fun _ => rfl) hline ?_
      (fun hx => by rw [hun]; exact hn.served hx) (fun hx => by rw [hun]; exact hn.undrained hx) (fun hx => by rw [hun]; exact hn.watched hx)
      (fun hx => by rw [hun]; exact hn.ready hx) (fun m _ => .refl d m) (fun _ => id) (.inr (by rw [hun]; exact id))
    have hdest := State.destination_of_bridged hb hc
    have hne := (hn.peer.of_some hc).1
    have hq : (u.queue (.tq c.peer)).occupancy = (s.queue (.tq c.peer)).occupancy :=
      congrArg (fun l : Line => l.tq.occupancy) (State.line_modLine_other _ _ hne)
    have := hn.held
    rw [hdest] at this
    rw [State.destination_of_bridged (by rw [hun]; exact hb) (by rw [hun]; exact hc), hq, hun]
    exact this
  · rw [State.tellHold_rq (by rw [hun]; exact hb)]
    have hx : (u.modLine n fun l => l.afterOccupancy (u.line n).rq.entries.length).line n =
        (u.line n).afterOccupancy (u.line n).rq.entries.length := State.line_modLine_same ..
    have hsame : ∀ m, m ≠ n → (u.modLine n fun l => l.afterOccupancy (u.line n).rq.entries.length).line m = s.line m := fun m hm => by
      rw [State.line_modLine_other _ _ hm, hu, State.line_modLine_other _ _ hm]; rfl
    refine h.modLine n hsame (by rw [hx, Line.afterOccupancy_face, hun]; rfl) rfl (fun _ => rfl) ?_ ?_ (fun hm => ?_) (fun hm => ?_)
      (fun hm => ?_) (fun hm => ?_) (fun m _ => .refl d m) (fun _ => id) (.inr (by rw [hx, Line.afterOccupancy_ready, hun]; exact id))
    · rw [hx]; exact hline.afterOccupancy _ (by rw [hun]; exact hs)
    · rw [State.destination_of_ne (by rw [hx, Line.afterOccupancy_state, hun]; exact hb), State.queue, hx, Line.afterOccupancy_rq]
      exact Line.afterOccupancy_heldAt _
    · rw [hx, hun]; exact (Line.Served.afterOccupancy (l := { s.line n with rq := q, overrun := o }) _ (hn.served hm))
    · rw [hx, hun]; exact (Line.Undrained.afterOccupancy (l := { s.line n with rq := q, overrun := o }) _ (hn.undrained hm))
    · rw [hx, hun]; exact (Line.afterOccupancy_watched (l := { s.line n with rq := q, overrun := o }) _).mpr (hn.watched hm)
    · rw [hx, hun]; exact (Line.afterOccupancy_readyOk (l := { s.line n with rq := q, overrun := o }) _).mpr (hn.ready hm)

theorem State.Sound.discardRq {d : Debts} (h : s.Sound d) (hs : (s.line n).state ≠ .closed) : (s.discardRq n).Sound d := by
  have heq : s.discard (.rq n) = (s.withFree (s.freeList ++ (s.queue (.rq n)).chain)).modLine n fun l =>
      { l with rq := (s.queue (.rq n)).emptied, overrun := (s.line n).overrun } := by
    rw [State.discard_eq_emptied, State.setQueue_rq]
    exact State.modLine_congr rfl
  rw [State.discardRq, heq]
  exact h.rqChanged hs _ _ _

/-! ### Overruns -/

theorem State.Sound.overrun {d : Debts} (h : s.Sound d) (hs : (s.line n).state ≠ .closed) (o : Bool) :
    (s.modLine n fun l => { l with overrun := o }).Sound d :=
  h.modLine_quiet n rfl rfl rfl rfl { (h.lines n).line with closed := fun hc => absurd hc hs } id id rfl rfl

theorem State.Sound.overrunOf {d : Debts} (h : s.Sound d) (hs : (s.line n).state ≠ .closed) (p : Byte) : (s.overrunOf n p).Sound d := by
  unfold State.overrunOf
  split
  · exact h
  · exact (h.overrun hs true).of_lines rfl rfl rfl

theorem State.Sound.noteOverrun {d : Debts} (h : s.Sound d) (hs : (s.line n).state ≠ .closed) (p : OverrunPlace) :
    (s.noteOverrun n p).Sound d := by
  unfold State.noteOverrun
  split
  · exact h
  · exact (h.overrun hs true).post _ _ _ _

/-- An entry received on a line that is not BRIDGED joins its own RQ or is an overrun (R65, R67, R68). -/
theorem State.Sound.routeAppend_rq {d : Debts} (h : s.Sound d) (hs : (s.line n).state ≠ .closed) (e : Entry) :
    (s.routeAppend n (.rq n) .ownRq e).Sound d := by
  unfold State.routeAppend
  split
  · exact h.noteOverrun hs _
  · next t ht =>
    have heq : t.clearOverrun n = (s.withFree ((s.queue (.rq n)).freeAfter s.freeList)).modLine n fun l =>
        { l with rq := (s.queue (.rq n)).withEntry s.freeList e, overrun := false } := by
      rw [State.append_eq_withEntry ht, State.setQueue_rq, State.clearOverrun, State.modLine_modLine]
    rw [heq]
    exact h.rqChanged hs _ _ _

/-! ### Appends to a TQ -/

/-- A transmitter that has been served is served behind an entry that joins a TQ with entries (R9). -/
theorem Line.Served.of_entries {l : Line} (h : l.Served) (he : l.tq.entries ≠ []) (q : Queue) : ({ l with tq := q } : Line).Served :=
  fun ht => ⟨(h ht).1, .inl ((h ht).2.resolve_right he)⟩

/-- An entry appended to a TQ: the transmitter of a TQ that was empty may begin it (R9, R30). -/
theorem State.Sound.appended (h : s.Sound ⟨tx, drain, record, monitor, ready⟩) (hn : n ∉ tx) (hs : (s.line n).state ≠ .closed) (e : Entry) :
    (if (s.line n).tq.entries = [] then (s.stored n e).kickTx n else s.stored n e).Sound ⟨tx, drain, record, monitor, ready⟩ := by
  have hstored := h.stored hs e
  split
  · exact hstored.kickTx
  · next he =>
    refine hstored.pay_tx ?_
    rw [h.stored_line]
    exact ((h.lines n).served hn).of_entries he _

theorem State.Sound.appendTold (h : s.Sound ⟨tx, drain, record, monitor, ready⟩) (hn : n ∉ tx) (hs : (s.line n).state ≠ .closed) {e : Entry}
    (ht : s.appendTold (.tq n) e = some t) : t.Sound ⟨tx, drain, record, monitor, ready⟩ := by
  have ha : s.Accepts (.tq n) := by
    by_contra hr
    rw [State.appendTold_of_refused hr] at ht
    cases ht
  rw [State.appendTold_of_accepts e ha] at ht
  cases ht
  exact h.appended hn hs e

/-- An entry of BRIDGED line x passed on to its peer (R66 to R68). -/
theorem State.Sound.passedOn {x y : LineNo} {c : Connection} (h : s.Sound ⟨tx, drain, record, monitor, ready⟩) (hb : s.Bridged x y c)
    (hy : y ∉ tx) (e : Entry) : (s.passedOn x y e).Sound ⟨tx, drain, record, monitor, ready⟩ := by
  obtain ⟨hxy, hsx, hsy, -⟩ := hb
  have hx : (s.line x).state ≠ .closed := by rw [hsx]; decide
  by_cases ha : s.Accepts (.tq y)
  · rw [State.passedOn_of_accepts ha]
    set u := s.modLine x fun l => { l with overrun := false } with hu
    have huy : u.line y = s.line y := State.line_modLine_other _ _ hxy.symm
    have hb : ((u.stored y e).line y).state = .bridged := by rw [State.stored_line_state, huy, hsy]
    rw [← State.kickTx_of_bridged hb, ← huy]
    exact (h.overrun hx false).appended hy (by rw [huy, hsy]; decide) e
  · rw [State.passedOn_of_refused ha]
    exact h.overrunOf hx _

/-! ### Discards of a TQ -/

theorem State.tqChanged_of_none (hc : (s.line n).conn = none) (free : List Nat) (q : Queue) (x : TxState) (b : Timer) :
    s.tqChanged n free q x b = (s.withFree free).modLine n fun l => { l with tq := q, tx := x, breakTimer := b } :=
  State.feederSees_of_none (by rw [State.line_modLine_same]; exact hc)

/-- A TQ emptied on a line without a connection. -/
theorem State.Sound.emptied (h : s.Sound ⟨tx, drain, record, monitor, ready⟩) (hn : n ∉ tx) (hc : (s.line n).conn = none) :
    ((s.withFree (s.freeList ++ (s.line n).tq.chain)).modLine n fun l => { l with tq := l.tq.emptied }).Sound
      ⟨tx, n :: drain, n :: record, monitor, ready⟩ := by
  have hl := h.lines n
  have heq : (s.withFree (s.freeList ++ (s.line n).tq.chain)).modLine n (fun l => { l with tq := l.tq.emptied }) =
      s.tqChanged n (s.freeList ++ (s.line n).tq.chain) (s.line n).tq.emptied (s.line n).tx (s.line n).breakTimer := by
    rw [State.tqChanged_of_none hc]
    exact State.modLine_congr rfl
  rw [heq]
  refine (h.tqChanged n _ _ _ _ (fun _ => rfl) hl.line.spacing).pay_tx ?_
  rw [h.tqChanged_line, if_pos rfl]
  exact fun ht => ⟨(hl.served hn ht).1, .inr rfl⟩

theorem State.Sound.discardTq (h : s.Sound ⟨tx, drain, record, monitor, ready⟩) (hn : n ∉ tx) (hs : (s.line n).state = .host) :
    (s.discardTq n).Sound ⟨tx, drain, record, monitor, ready⟩ := by
  have hc := h.conn_none (.inr (.inl hs))
  refine ((h.emptied hn hc).pay_drain (Line.undrained_of_state ?_)).evaluated (State.discardTq_evaluated hs hc)
  rw [State.line_modLine_same]
  exact fun hd => by rw [show (s.line n).state = .draining from hd] at hs; cases hs

/-- The rest of a TQ discarded, and the drain checked (R111, R112). -/
theorem State.Sound.cutDrain (h : s.Sound ⟨tx, drain, record, monitor, ready⟩) (hn : n ∉ tx) (hs : (s.line n).state = .draining) :
    (s.cutDrain n).Sound ⟨tx, drain, record, monitor, ready⟩ := by
  have hc := h.conn_none (.inr (.inr hs))
  rw [State.cutDrain_eq hc]
  have htally : (s.modLine n fun l => { l with drainTimer := none, tally := min 255 (l.tally + l.tq.entries.length) }).Sound
      ⟨tx, drain, record, monitor, ready⟩ :=
    h.modLine_quiet n rfl rfl rfl rfl { (h.lines n).line with
      draining := nofun
      tally := ⟨Nat.min_le_left _ _, fun _ => hs⟩ } id id rfl rfl
  have hline := State.line_modLine_same s n fun l => { l with drainTimer := none, tally := min 255 (l.tally + l.tq.entries.length) }
  have hcut := htally.emptied hn (by rw [hline]; exact hc)
  rw [hline, State.modLine_withFree, State.modLine_modLine] at hcut
  exact hcut.drainCheck.evaluateLine
end

end Sys2Proof.Machine

/-! PROOF. Hand-overs and releases keep the invariant behind O6: a list stored entry by entry, and two lines parted with their record. -/

namespace Sys2Proof.Machine

set_option Elab.async false

section
variable {s t : State} {tx drain record monitor ready : List LineNo} {x y : LineNo} {c : Connection}

/-! ### A holding list handed over (R25, R69, R127) -/

/-- Entries stored in TQ n one after another change line n in its TQ alone. -/
theorem State.Sound.foldl_stored {n : LineNo} (h : s.Sound ⟨n :: tx, drain, record, monitor, ready⟩) (hs : (s.line n).state ≠ .closed)
    (es : List Entry) : (es.foldl (fun v e => v.stored n e) s).Sound ⟨n :: tx, drain, record, monitor, ready⟩ ∧
      ∃ q, (es.foldl (fun v e => v.stored n e) s).line n = { s.line n with tq := q } := by
  induction es generalizing s with
  | nil => exact ⟨h, (s.line n).tq, rfl⟩
  | cons e es ih =>
    have hone := (h.stored hs e).mono (e := ⟨n :: tx, drain, record, monitor, ready⟩)
      (fun m => ⟨fun hm => (List.mem_cons.mp hm).elim (fun e => e ▸ List.mem_cons_self ..) id, id, id, id⟩) fun _ => id
    obtain ⟨hall, q, hq⟩ := ih hone (by rw [State.stored_line_state]; exact hs)
    refine ⟨hall, q, hq.trans ?_⟩
    rw [h.stored_line]

theorem State.Sound.handedOver (h : s.Sound ⟨tx, drain, record, monitor, ready⟩) (hb : s.Bridged x y c) (hy : y ∉ tx) :
    (s.handedOver x y).Sound ⟨tx, drain, record, x :: monitor, ready⟩ := by
  obtain ⟨hxy, hsx, hsy, -⟩ := hb
  have hopen : ∀ {u : State}, (u.line x).state = .bridged → (u.line x).state ≠ .closed := fun hu => by rw [hu]; decide
  unfold State.handedOver
  dsimp only
  set t := s.modLine x fun l => { l with monitor := { l.monitor with holding := [], count := 0 } } with ht
  have hlx := h.lines x
  have hclear : t.Sound ⟨tx, drain, record, x :: monitor, ready⟩ :=
    h.modLine_keeps x rfl rfl rfl rfl { hlx.line with } hlx.served hlx.undrained (fun hm => absurd (List.mem_cons_self ..) hm) hlx.ready
      (fun m _ => ⟨id, id, List.mem_cons_of_mem x, id⟩) (fun _ => id) (.inr id)
  have htx : (t.line x).state = .bridged := by rw [ht, State.line_modLine_same]; exact hsx
  have hty : t.line y = s.line y := State.line_modLine_other _ _ hxy.symm
  generalize State.acceptedOf y (s.line x).monitor.holding t = accepted
  set w := if accepted = [] then t else t.modLine x fun l => { l with overrun := false } with hw
  have hws : w.Sound ⟨tx, drain, record, x :: monitor, ready⟩ := by
    rw [hw]
    split
    · exact hclear
    · exact hclear.overrun (hopen htx) false
  have hwstate : ∀ m, (w.line m).state = (t.line m).state := fun m => by
    rw [hw]
    split
    · rfl
    · exact t.modLine_reads Line.state (by intro; rfl) x m
  have hwy : w.line y = s.line y := by
    rw [hw]
    split
    · exact hty
    · rw [State.line_modLine_other _ _ hxy.symm]; exact hty
  obtain ⟨hu, q, hq⟩ := (hws.owe_tx y).foldl_stored (by rw [hwy, hsy]; decide) accepted
  have hustate : ∀ m, ((accepted.foldl (fun v e => v.stored y e) w).line m).state = (w.line m).state := fun m =>
    (Line.bearing_eq_iff.mp (w.foldl_stored_line_bearing y m accepted)).1
  have hux : ((accepted.foldl (fun v e => v.stored y e) w).line x).state = .bridged := by rw [hustate, hwstate, htx]
  have huy : ((accepted.foldl (fun v e => v.stored y e) w).line y).state = .bridged := by rw [hustate, hwy, hsy]
  have hserved : ¬ (accepted ≠ [] ∧ (s.line y).tq.entries = []) →
      ((accepted.foldl (fun v e => v.stored y e) w).line y).Served := fun hno => by
    have hbefore := (h.lines y).served hy
    rcases accepted with - | ⟨e, es⟩
    · rw [List.foldl_nil, hwy]; exact hbefore
    · rw [hq, hwy]
      exact hbefore.of_entries (fun he => hno ⟨by simp, he⟩) q
  generalize accepted.foldl (fun v e => v.stored y e) w = u at hu hux huy hserved
  have hv : (if accepted ≠ [] ∧ (s.line y).tq.entries = [] then u.mayBegin y else u).Sound ⟨tx, drain, record, x :: monitor, ready⟩ := by
    split
    · exact hu.mayBegin_bridged huy
    · next hno => exact hu.pay_tx (hserved hno)
  split
  · refine hv.overrunOf ?_ _
    split
    · rw [(Line.bearing_eq_iff.mp (u.mayBegin_line_bearing y x)).1, hux]; decide
    · exact hopen hux
  · exact hv

/-! ### Two lines parted (R103) -/

theorem Line.Sound.freed {l : Line} (h : l.Sound) (hs : l.state = .bridged) (d : Byte) : (l.freed d).Sound := by
  have hl : (l.released d).Sound := { h with
    closed := nofun
    receiver := ⟨fun hr => (by have := h.receiver.mp hr; rw [hs] at this; cases this), nofun⟩
    answering := fun ht => by have := h.answering ht; rw [hs] at this; cases this
    draining := fun _ => rfl
    idling := nofun
    tally := ⟨Nat.zero_le _, fun ht => absurd rfl ht⟩ }
  exact hl.afterOccupancy _ nofun

theorem Line.Served.freed {l : Line} (h : l.Served) (d : Byte) : (l.freed d).Served :=
  Line.Served.afterOccupancy (l := l.released d) _ h

/-- Changes of connections that are ordered, before and after, keep the standing law (R134). -/
theorem State.StandingLaw.of_ordered (h : s.StandingLaw) (hr : ∀ i, t.record i = s.record i)
    (hc : ∀ n, (t.line n).conn = (s.line n).conn ∨ (∀ c, (s.line n).conn = some c → c.origin = .ordered) ∧
      ∀ c, (t.line n).conn = some c → c.origin = .ordered) : t.StandingLaw := by
  obtain ⟨hrecords, hdisjoint, horigins⟩ := h
  have hserves : ∀ n i r (c : Contents), (s.line n).conn = some (standingPart c i r) → (t.line n).conn = some (standingPart c i r) := by
    intro n i r c hn
    obtain he | ⟨ho, -⟩ := hc n
    · exact he.trans hn
    · cases ho _ hn
  refine ⟨fun i => ?_, fun i j n => by rw [hr, hr]; exact hdisjoint i j n, fun n i hn => ?_⟩
  · rw [hr]
    have hi := hrecords i
    cases he : s.record i with
    | empty => trivial
    | idle c => rw [he] at hi; exact hi
    | armed c => rw [he] at hi; exact hi
    | active c =>
      rw [he] at hi
      obtain ⟨hne, ha, hb⟩ := hi
      exact ⟨hne, hserves _ _ _ _ ha, hserves _ _ _ _ hb⟩
  · obtain he | ⟨-, ho⟩ := hc n
    · rw [he] at hn
      rw [hr]
      exact horigins n i hn
    · obtain ⟨e, he, hi⟩ := Option.map_eq_some_iff.mp hn
      rw [ho e he] at hi
      cases hi

/-- Two lines of a standing connection that lose their optional parts, and their record with them (R134, R144). -/
theorem State.StandingLaw.parted {i : SlotNo} (h : s.StandingLaw) (ho : c.origin = .standing i) (hx : (s.line x).conn = some c)
    (hp : c.peer = y) (hother : ∀ n, ¬ (n = x ∨ n = y) → t.line n = s.line n) (htx : (t.line x).conn = none) (hty : (t.line y).conn = none)
    (reason : Byte) (hr : ∀ j, t.record j = if j = i then afterConnection reason (s.record i) else s.record j) :
    t.StandingLaw ∧ ∃ k, s.record i = .active k ∧ ∀ m, m = k.lineA ∨ m = k.lineB → m = x ∨ m = y := by
  obtain ⟨hrecords, hdisjoint, horigins⟩ := h
  obtain ⟨k, hk, hxk⟩ := horigins x i (by rw [hx, Option.map_some, ho])
  have hki := hrecords i
  rw [hk] at hki
  obtain ⟨hne, hka, hkb⟩ := hki
  have hlines : (x = k.lineA ∧ y = k.lineB) ∨ (x = k.lineB ∧ y = k.lineA) := by
    rcases hxk with e | e
    · rw [← e, hx] at hka
      exact .inl ⟨e, by rw [← hp, Option.some.inj hka]; rfl⟩
    · rw [← e, hx] at hkb
      exact .inr ⟨e, by rw [← hp, Option.some.inj hkb]; rfl⟩
  have hpair : ∀ m, m = k.lineA ∨ m = k.lineB → m = x ∨ m = y := by
    rintro m (rfl | rfl) <;> rcases hlines with ⟨e1, e2⟩ | ⟨e1, e2⟩ <;> simp [e1, e2]
  have horigin : ∀ m, m = x ∨ m = y → (s.line m).conn.map (·.origin) = some (.standing i) := by
    intro m hm
    have hm : m = k.lineA ∨ m = k.lineB := by
      rcases hlines with ⟨e1, e2⟩ | ⟨e1, e2⟩ <;> rcases hm with e | e <;> simp [e, e1, e2]
    rcases hm with rfl | rfl
    · rw [hka]; rfl
    · rw [hkb]; rfl
  have hafter : afterConnection reason (s.record i) = .armed k ∨ afterConnection reason (s.record i) = .idle k := by
    rw [hk]
    unfold afterConnection
    dsimp only
    split
    · exact .inl rfl
    · exact .inr rfl
  have hreserves : ∀ j n, reserves (t.record j) n = true → reserves (s.record j) n = true := by
    intro j n hn
    rw [hr] at hn
    split at hn
    · next e =>
      rw [e, hk]
      rcases hafter with ha | ha <;> rw [ha] at hn
      · exact hn
      · cases hn
    · exact hn
  have hkeep : ∀ n j, j ≠ i → (s.line n).conn.map (·.origin) = some (.standing j) → t.line n = s.line n := by
    intro n j hj hn
    refine hother n fun hm => hj ?_
    rw [horigin n hm] at hn
    cases hn
    rfl
  refine ⟨⟨fun j => ?_, fun j k' n h1 h2 => hdisjoint j k' n (hreserves j n h1) (hreserves k' n h2), fun n j hn => ?_⟩, k, hk, hpair⟩
  · rw [hr]
    by_cases hji : j = i
    · rw [if_pos hji]
      rcases hafter with ha | ha <;> rw [ha] <;> exact hne
    · rw [if_neg hji]
      have hj := hrecords j
      cases he : s.record j with
      | empty => trivial
      | idle c' => rw [he] at hj; exact hj
      | armed c' => rw [he] at hj; exact hj
      | active c' =>
        rw [he] at hj
        obtain ⟨hne', ha, hb⟩ := hj
        exact ⟨hne', by rw [hkeep _ j hji (by rw [ha]; rfl)]; exact ha, by rw [hkeep _ j hji (by rw [hb]; rfl)]; exact hb⟩
  · have hnot : ¬ (n = x ∨ n = y) := by
      rintro (rfl | rfl)
      · rw [htx] at hn; cases hn
      · rw [hty] at hn; cases hn
    rw [hother n hnot] at hn
    obtain ⟨c', hc', hn'⟩ := horigins n j hn
    have hji : j ≠ i := by
      rintro rfl
      rw [hk] at hc'
      cases hc'
      exact hnot (hpair n hn')
    exact ⟨c', by rw [hr, if_neg hji]; exact hc', hn'⟩

/-- Two lines parted are left with their drains to check (R103, R110). -/
theorem State.Sound.parted (h : s.Sound ⟨tx, drain, record, x :: y :: monitor, x :: y :: ready⟩) (hb : s.Bridged x y c) (reason : Byte) :
    (s.parted x y c reason).Sound ⟨tx, x :: y :: drain, record, monitor, ready⟩ := by
  obtain ⟨d, hd⟩ := hb.symm
  obtain ⟨hxy, hsx, hsy, hcx, hp, -⟩ := hb
  obtain ⟨-, -, -, hcy, hpd, -⟩ := hd
  have hline : ∀ n, (s.parted x y c reason).line n = (s.partedLines x y reason).line n := fun n => by
    rw [State.parted_eq s hxy]
    cases c.origin <;> rfl
  have hX : (s.parted x y c reason).line x = (s.line x).freed s.drainLimit := by rw [hline, State.partedLines_line_fst hxy]
  have hY : (s.parted x y c reason).line y = (s.line y).freed s.drainLimit := by rw [hline, State.partedLines_line_snd hxy]
  have hother : ∀ n, ¬ (n = x ∨ n = y) → (s.parted x y c reason).line n = s.line n := fun n hn => by
    obtain ⟨hnx, hny⟩ := not_or.mp hn
    have : (s.partedLines x y reason).line n =
        ((s.modLine x fun l => l.freed s.drainLimit).modLine y fun l => l.freed s.drainLimit).line n := rfl
    rw [hline, this, State.line_modLine_other _ _ hny, State.line_modLine_other _ _ hnx]
  have hport : (s.parted x y c reason).port = s.port := by
    rw [State.parted_eq s hxy]
    cases c.origin <;> rfl
  have hopen : s.port.state ≠ .loading := fun hl => by
    have := (h.lines x).loading hl
    rw [hsx] at this
    cases this
  have hnone : ∀ n, n = x ∨ n = y → ((s.parted x y c reason).line n).conn = none := by
    rintro n (rfl | rfl)
    · rw [hX]; exact Line.afterOccupancy_conn _ _
    · rw [hY]; exact Line.afterOccupancy_conn _ _
  have hstate : ∀ n, n = x ∨ n = y → ((s.parted x y c reason).line n).state = .draining := by
    rintro n (rfl | rfl)
    · rw [hX]; exact Line.freed_state _ _
    · rw [hY]; exact Line.freed_state _ _
  have hfor : ∀ n, n = x ∨ n = y → (s.parted x y c reason).line n = (s.line n).freed s.drainLimit → (s.line n).state = .bridged →
      (s.parted x y c reason).SoundFor ⟨tx, x :: y :: drain, record, monitor, ready⟩ n := by
    intro n hn he hs
    refine ⟨⟨by rw [he]; exact (h.lines n).line.freed hs _, State.peerOk_none (hnone n hn) (.inr (.inr (hstate n hn))), ?_,
      fun hl => absurd (hport ▸ hl) hopen⟩, fun ht => by rw [he]; exact ((h.lines n).served ht).freed _, fun hx => ?_, fun _ => ?_, fun _ => ?_⟩
    · rw [State.destination_of_ne (by rw [hstate n hn]; decide), State.queue, he]
      have : ((s.line n).freed s.drainLimit).rq = (s.line n).rq := Line.afterOccupancy_rq _ _
      rw [this]
      exact Line.afterOccupancy_heldAt _
    · rcases hn with rfl | rfl <;> simp at hx
    · unfold Line.Watched
      rw [hnone n hn, he]
      exact Line.afterOccupancy_monitor _ _
    · rw [Line.ReadyOk, hstate n hn]
      exact ⟨nofun, nofun, nofun⟩
  have hstanding : (s.parted x y c reason).StandingLaw ∧ ∀ i k, (s.parted x y c reason).record i = .armed k →
      s.record i = .armed k ∨ k.lineA = x ∨ k.lineA = y := by
    cases ho : c.origin with
    | ordered =>
      have hrecord : ∀ i, (s.parted x y c reason).record i = s.record i := fun i => by rw [State.parted_eq s hxy, ho]; rfl
      have hod : d.origin = .ordered := by
        obtain ⟨-, -, -, e, he, hparts⟩ := (h.lines x).peer.of_some hcx
        rw [hp, hcy] at he
        cases he
        simp only [pairedParts, Bool.and_eq_true, beq_iff_eq] at hparts
        obtain ⟨⟨⟨⟨⟨⟨-, horigin⟩, -⟩, -⟩, -⟩, -⟩, -⟩ := hparts
        rw [horigin, ho]
      refine ⟨h.standing.of_ordered hrecord fun n => ?_, fun i k hi => .inl (by rw [← hrecord]; exact hi)⟩
      by_cases hn : n = x ∨ n = y
      · refine .inr ⟨fun e he => ?_, fun e he => by rw [hnone n hn] at he; cases he⟩
        rcases hn with rfl | rfl
        · rw [hcx] at he; cases he; exact ho
        · rw [hcy] at he; cases he; exact hod
      · exact .inl (by rw [hother n hn])
    | standing i =>
      have hrecord : ∀ j, (s.parted x y c reason).record j = if j = i then afterConnection reason (s.record i) else s.record j := fun j => by
        rw [State.parted_eq s hxy, ho]
        exact State.record_setRecord _ _ _ _
      obtain ⟨hlaw, k, hk, hpair⟩ := h.standing.parted ho hcx hp hother (hnone x (.inl rfl)) (hnone y (.inr rfl)) reason hrecord
      refine ⟨hlaw, fun j k' hj => ?_⟩
      rw [hrecord] at hj
      split at hj
      · next e =>
        rw [hk] at hj
        unfold afterConnection at hj
        dsimp only at hj
        split at hj <;> cases hj
        exact .inr (hpair _ (.inl rfl))
      · exact .inl hj
  obtain ⟨hlaw, harmed⟩ := hstanding
  refine h.change (fun n => n = x ∨ n = y) (h.pair (fun e he => by rw [hcx] at he; cases he; exact hp) fun e he => by
      rw [hcy] at he; cases he; exact hpd) hother hport ?_ (fun n hn => ?_) hlaw (fun i => ?_) ?_
  · rintro n (rfl | rfl)
    · exact hfor _ (.inl rfl) hX hsx
    · exact hfor _ (.inr rfl) hY hsy
  · obtain ⟨hnx, hny⟩ := not_or.mp hn
    exact ⟨id, fun hm => List.mem_cons_of_mem _ (List.mem_cons_of_mem _ hm), by simp [hnx, hny], by simp [hnx, hny]⟩
  · rw [State.parted_eq s hxy]
    cases c.origin with
    | ordered => exact h.records i
    | standing j =>
      refine (State.record_setRecord (s.partedLines x y reason) j i _).symm ▸ ?_
      split
      · have := h.records j
        revert this
        cases s.record j with
        | active k => unfold afterConnection; dsimp only; split <;> exact id
        | empty => exact id
        | idle k => exact id
        | armed k => exact id
      · exact h.records i
  · intro i k hi ha hb hcond
    obtain ⟨hea, heb⟩ := (State.conditions_iff _ k).mp hcond
    have hnot : ∀ n, ((s.parted x y c reason).line n).Eligible → ¬ (n = x ∨ n = y) := fun n he hn => by
      have := he.1
      rw [hstate n hn] at this
      cases this
    obtain hi | hk := harmed i k hi
    · rw [hother _ (hnot _ hea)] at hea
      rw [hother _ (hnot _ heb)] at heb
      exact h.quiet i k hi ha hb ((s.conditions_iff k).mpr ⟨hea, heb⟩)
    · exact hnot _ hea hk

/-- A release from any cause (R103). -/
theorem State.Sound.release (h : s.Sound ⟨tx, drain, record, x :: y :: monitor, x :: y :: ready⟩) (hb : s.Bridged x y c) (hx : x ∉ tx)
    (hy : y ∉ tx) (r : ReleaseReason) : (s.release x r).Sound ⟨tx, drain, record, monitor, ready⟩ := by
  obtain ⟨d, hd⟩ := (hb.handedOver x y).symm
  have hlists : ((s.handedOver x y).handedOver y x).Sound ⟨tx, drain, record, x :: y :: monitor, x :: y :: ready⟩ :=
    ((h.handedOver hb hy).handedOver hd hx).mono (fun n => ⟨id, id, fun hn => by simp at hn ⊢; tauto, id⟩) fun _ => id
  obtain ⟨u, hu, ht⟩ := State.release_releasesTo hb r
  rw [State.connectionReleased_eq hb] at hu
  exact ((hlists.parted ((hb.handedOver x y).handedOver y x) _).drainChecked hu).drainChecked ht
end

end Sys2Proof.Machine

/-! PROOF. Calls and the commands of lines and of the Standing List keep the invariant behind O6. -/

namespace Sys2Proof.Machine

set_option Elab.async false

/-! ### Calls in setup -/

/-- Line x calls line y, which has been offered the call: both name each other in ordered optional parts (R58, R80). -/
structure State.Calling (s : State) (x y : LineNo) (c d : Connection) : Prop where
  ne : x ≠ y
  caller : (s.line x).state = .calling
  called : (s.line y).state = .offered
  connX : (s.line x).conn = some c
  connY : (s.line y).conn = some d
  peerX : c.peer = y
  peerY : d.peer = x
  roleX : c.role = .caller
  roleY : d.role = .called
  originX : c.origin = .ordered
  originY : d.origin = .ordered
  partsX : pairedParts x c d = true
  partsY : pairedParts y d c = true

section
variable {s t : State} {d : Debts} {x y : LineNo}

theorem State.Sound.calling (h : s.Sound d) (hs : (s.line x).state = .calling) : ∃ y c e, s.Calling x y c e := by
  obtain ⟨c, hc⟩ := (h.lines x).peer.conn_some (.inr (.inl hs))
  obtain ⟨hne, hstates, horigin, e, he, hparts⟩ := (h.lines x).peer.of_some hc
  have hp := pairedParts_peer hparts
  have hx : c.role = .caller ∧ (s.line c.peer).state = .offered := by
    rcases pairedStates_state hstates with ⟨hb, -⟩ | ⟨hr, -, hy⟩ | ⟨-, hb, -⟩
    · rw [hs] at hb; cases hb
    · exact ⟨hr, hy⟩
    · rw [hs] at hb; cases hb
  obtain ⟨hr, hy⟩ := hx
  obtain ⟨-, hstates', horigin', c', hc', hparts'⟩ := (h.lines c.peer).peer.of_some he
  rw [hp, hc] at hc'
  cases hc'
  have hr' : e.role = .called := by
    rcases pairedStates_state hstates' with ⟨hb, -⟩ | ⟨-, hb, -⟩ | ⟨hr, -, -⟩
    · rw [hy] at hb; cases hb
    · rw [hy] at hb; cases hb
    · exact hr
  exact ⟨c.peer, c, e, hne.symm, hs, hy, hc, he, rfl, hp, hr, hr', horigin (by rw [hs]; decide), horigin' (by rw [hy]; decide), hparts, hparts'⟩

theorem State.Sound.offered (h : s.Sound d) (hs : (s.line y).state = .offered) : ∃ x c e, s.Calling x y c e := by
  obtain ⟨e, he⟩ := (h.lines y).peer.conn_some (.inr (.inr hs))
  obtain ⟨-, hstates, -, c, hc, hparts⟩ := (h.lines y).peer.of_some he
  have hx : (s.line e.peer).state = .calling := by
    rcases pairedStates_state hstates with ⟨hb, -⟩ | ⟨-, hb, -⟩ | ⟨-, -, hx⟩
    · rw [hs] at hb; cases hb
    · rw [hs] at hb; cases hb
    · exact hx
  obtain ⟨y', c', e', hcall⟩ := h.calling hx
  have hy : y' = y := by
    have hcx := hcall.connX
    rw [hc] at hcx
    cases hcx
    rw [← hcall.peerX, pairedParts_peer hparts]
  exact ⟨e.peer, c', e', hy ▸ hcall⟩

/-- A change of two lines that have no optional parts or ordered ones that name each other, before and after. -/
theorem State.Sound.ordered {e : Debts} (h : s.Sound d) (hx : ∀ c, (s.line x).conn = some c → c.peer = y ∧ c.origin = .ordered)
    (hy : ∀ c, (s.line y).conn = some c → c.peer = x ∧ c.origin = .ordered)
    (hsame : ∀ n, n ≠ x → n ≠ y → t.line n = s.line n) (hport : t.port = s.port) (hrecord : ∀ i, t.record i = s.record i)
    (hforX : t.SoundFor e x) (hforY : t.SoundFor e y) (htx : ∀ c, (t.line x).conn = some c → c.origin = .ordered)
    (hty : ∀ c, (t.line y).conn = some c → c.origin = .ordered) (hde : ∀ n, n ≠ x → n ≠ y → d.Within e n)
    (hrec : ∀ n, n ∈ d.record → n ∈ e.record) (hex : x ∈ e.record ∨ ¬ (t.line x).Eligible)
    (hey : y ∈ e.record ∨ ¬ (t.line y).Eligible) : t.Sound e := by
  refine h.change (fun n => n = x ∨ n = y) (h.pair (fun c hc => (hx c hc).1) fun c hc => (hy c hc).1)
    (fun n hn => hsame n (not_or.mp hn).1 (not_or.mp hn).2) hport ?_ (fun n hn => hde n (not_or.mp hn).1 (not_or.mp hn).2)
    (h.standing.of_ordered hrecord fun n => ?_) (fun i => by rw [hrecord]; exact h.records i)
    (h.quiet.of_eligible (fun i c hi => hrecord i ▸ hi) fun n hn he => ⟨hn ∘ hrec n, ?_⟩)
  · rintro n (rfl | rfl)
    · exact hforX
    · exact hforY
  · by_cases hnx : n = x
    · exact .inr ⟨fun c hc => (hx c (hnx ▸ hc)).2, fun c hc => htx c (hnx ▸ hc)⟩
    · by_cases hny : n = y
      · exact .inr ⟨fun c hc => (hy c (hny ▸ hc)).2, fun c hc => hty c (hny ▸ hc)⟩
      · exact .inl (by rw [hsame n hnx hny])
  · rw [← hsame n (fun e' => hex.elim (e' ▸ hn) (e' ▸ absurd he)) fun e' => hey.elim (e' ▸ hn) (e' ▸ absurd he)]
    exact he

/-- HOST, CALLING and OFFERED: the states between which a call that is never answered moves a line (R80, R86). -/
def LineState.InSetup (k : LineState) : Prop := k = .host ∨ k = .calling ∨ k = .offered

theorem LineState.InSetup.ne {k : LineState} (h : k.InSetup) : k ≠ .closed ∧ k ≠ .bridged ∧ k ≠ .draining := by
  rcases h with h | h | h <;> rw [h] <;> decide

/-- A line that moves between these states keeps all but its ready level by itself. -/
theorem State.SoundFor.restated {e : Debts} (h : s.SoundFor d x) (hs : (s.line x).state.InSetup) {k : LineState} {o : Option Connection}
    {a : Timer} (hline : t.line x = { s.line x with state := k, conn := o, answerTimer := a }) (hk : k.InSetup)
    (ha : a.isSome = true → k = .calling) (hpeer : t.PeerOk x) (hport : t.port = s.port) (htx : x ∈ d.tx → x ∈ e.tx)
    (hmonitor : x ∉ d.monitor) (hprofile : ∀ c, o = some c → profileOk c.escCount c.guardTime = true)
    (hready : x ∉ e.ready → (t.line x).ReadyOk) : t.SoundFor e x := by
  obtain ⟨hsc, hsb, hsd⟩ := hs.ne
  obtain ⟨hkc, hkb, hkd⟩ := hk.ne
  have hstate : (t.line x).state = k := by rw [hline]
  refine ⟨⟨?_, hpeer, ?_, fun hl => absurd (h.loading (hport ▸ hl)) hsc⟩, fun hn => by rw [hline]; exact h.served (hn ∘ htx),
    fun _ => Line.undrained_of_state (by rw [hstate]; exact hkd), fun _ => ?_, hready⟩
  · rw [hline]
    exact { h.line with
      closed := fun hc => absurd hc hkc
      receiver := ⟨fun hr => absurd (h.line.receiver.mp hr) hsc, fun hc => absurd hc hkc⟩
      answering := ha
      draining := fun ht => absurd (h.line.draining ht) hsd
      idling := fun ht => absurd (h.line.idling ht).1 hsb
      tally := ⟨h.line.tally.1, fun ht => absurd (h.line.tally.2 ht) hsd⟩ }
  · have := h.held
    rw [State.destination_of_ne hsb] at this
    rw [State.destination_of_ne (by rw [hstate]; exact hkb), State.queue, hline]
    exact this
  · have hoff : (s.line x).monitor = .offValue := by
      have := h.watched hmonitor
      unfold Line.Watched at this
      split at this
      · exact this
      · rw [if_neg hsb] at this; exact this.2
    unfold Line.Watched
    rw [hline]
    dsimp only
    split
    · exact hoff
    · next c => exact ⟨hprofile c rfl, by rw [if_neg hkb]; exact hoff⟩
end

section
variable {s t : State} {tx drain record monitor ready : List LineNo} {x y : LineNo} {c d : Connection}

/-- A call is offered (R80). -/
theorem State.Sound.offerCall (h : s.Sound .none) (hxy : x ≠ y) (hok : connectOk s = true) (hx : (s.line x).state = .host)
    (hy : (s.line y).state = .host) (hrx : (s.line x).ready = true) (hry : (s.line y).ready = false) : (s.offerCall x y).Sound .none := by
  have hcx := h.conn_none (.inr (.inl hx))
  have hcy := h.conn_none (.inr (.inl hy))
  obtain ⟨-, -, hcount, hguard, -⟩ := (connectOk_iff s).mp hok
  have hprofile := (profileOk_iff (s.param 4) (s.param 5)).mpr ⟨hcount, hguard⟩
  have hoffer : s.offerCall x y = (s.modLine x fun l => { l with
      state := .calling, conn := some (orderedPart s y .caller), answerTimer := startTimer ((s.param 2).toNat * Config.ticksPerSecond) }).modLine
      y fun l => { l with state := .offered, conn := some (orderedPart s x .called) } := by
    rw [State.offerCall, State.acceptCall, State.modLine_regroup_two s hxy]
  rw [hoffer]
  set t := (s.modLine x fun l => { l with
      state := .calling, conn := some (orderedPart s y .caller), answerTimer := startTimer ((s.param 2).toNat * Config.ticksPerSecond) }).modLine
      y fun l => { l with state := .offered, conn := some (orderedPart s x .called) }
  have hX : t.line x = { s.line x with state := .calling, conn := some (orderedPart s y .caller)
                                       answerTimer := startTimer ((s.param 2).toNat * Config.ticksPerSecond) } := by
    rw [State.line_modLine_other _ _ hxy, State.line_modLine_same]
  have hY : t.line y = { s.line y with state := .offered, conn := some (orderedPart s x .called) } := by
    rw [State.line_modLine_same, State.line_modLine_other _ _ hxy.symm]
  have hanswer : (s.line y).answerTimer.isSome = true → LineState.offered = .calling := fun ht => by
    have := (h.lines y).line.answering ht
    rw [hy] at this
    cases this
  have hparts : pairedParts x (orderedPart s y .caller) (orderedPart s x .called) = true ∧
      pairedParts y (orderedPart s x .called) (orderedPart s y .caller) = true := by simp [pairedParts, orderedPart]
  refine h.ordered (x := x) (y := y) (fun e he => by rw [hcx] at he; cases he) (fun e he => by rw [hcy] at he; cases he)
    (fun n hnx hny => by rw [State.line_modLine_other _ _ hny, State.line_modLine_other _ _ hnx]) rfl (fun _ => rfl)
    ((h.lines x).restated (.inl hx) hX (.inr (.inl rfl)) (fun _ => rfl) ?_ rfl id (by simp [Debts.none]) ?_ fun _ => ?_)
    ((h.lines y).restated (.inl hy) hY (.inr (.inr rfl)) hanswer ?_ rfl id (by simp [Debts.none]) ?_ fun _ => ?_)
    (fun e he => ?_) (fun e he => ?_) (fun _ _ _ => .refl _ _) (fun _ => id) (.inr (Line.not_eligible_of_state (by rw [hX]; nofun)))
    (.inr (Line.not_eligible_of_state (by rw [hY]; nofun)))
  · exact State.peerOk_some (by rw [hX]) (d := orderedPart s x .called) (show (t.line y).conn = _ by rw [hY]) hxy.symm
      (show pairedStates (t.line x) (t.line y) .caller = true by rw [hX, hY]; rfl) (fun _ => rfl) hparts.1
  · rintro _ ⟨⟩; exact hprofile
  · rw [hX]; exact ⟨nofun, fun _ => hrx, nofun⟩
  · exact State.peerOk_some (by rw [hY]) (d := orderedPart s y .caller) (show (t.line x).conn = _ by rw [hX]) hxy
      (show pairedStates (t.line y) (t.line x) .called = true by rw [hX, hY]; rfl) (fun _ => rfl) hparts.2
  · rintro _ ⟨⟩; exact hprofile
  · rw [hY]; exact ⟨nofun, nofun, fun _ => hry⟩
  · rw [hX] at he; cases he; rfl
  · rw [hY] at he; cases he; rfl

/-- Two lines of an ordered call or of none that become BRIDGED with each other (R82). -/
theorem State.Sound.bridgedPair (h : s.Sound ⟨tx, drain, record, monitor, y :: ready⟩) (hxy : x ≠ y)
    (hx : ∀ e, (s.line x).conn = some e → e.peer = y ∧ e.origin = .ordered) (hy : ∀ e, (s.line y).conn = some e → e.peer = x ∧ e.origin = .ordered)
    (hX : t.line x = { (s.line x).bridgedOn c (s.line y).tq.entries.length with answerTimer := none, idleTimer := idleTimerOf c.idleLimit })
    (hY : t.line y = (s.line y).bridgedOn d (s.line x).tq.entries.length) (hsame : ∀ n, n ≠ x → n ≠ y → t.line n = s.line n)
    (hport : t.port = s.port) (hrecord : ∀ i, t.record i = s.record i) (hpc : c.peer = y) (hpd : d.peer = x)
    (hrole : c.role = .caller) (hcd : pairedParts x c d = true) (hdc : pairedParts y d c = true) (hoc : c.origin = .ordered)
    (hod : d.origin = .ordered) (hprofile : profileOk c.escCount c.guardTime = true) (hsx : (s.line x).state.InSetup)
    (hsy : (s.line y).state.InSetup) (hay : (s.line y).answerTimer = none) (hrx : (s.line x).ready = true) (hry : (s.line y).ready = true) :
    t.Sound ⟨tx, drain, record, monitor, ready⟩ := by
  have hopen : t.port.state ≠ .loading := fun hl => hsx.ne.1 ((h.lines x).loading (hport ▸ hl))
  have hlx : ({ s.line x with answerTimer := none } : Line).Sound := { (h.lines x).line with answering := nofun }
  obtain ⟨hforX, hforY⟩ := State.soundFor_bridgedOn (t := t) (d := ⟨tx, drain, record, monitor, ready⟩)
    (lx := { s.line x with answerTimer := none }) (ly := s.line y) hxy
    (by rw [hX, Line.bridgedOn_answerTimer (s.line x) c (s.line y).tq.entries.length none]) hY hpc hpd hrole hcd hdc hprofile
    hlx (h.lines y).line hsx hsy rfl hay (h.lines x).served (h.lines y).served hrx hry hopen
  refine h.ordered (x := x) (y := y) hx hy hsame hport hrecord hforX hforY (fun e he => ?_) (fun e he => ?_)
    (fun n _ hny => ⟨id, id, id, fun hm => (List.mem_cons.mp hm).resolve_left hny⟩) (fun _ => id)
    (.inr (Line.not_eligible_of_state ?_)) (.inr (Line.not_eligible_of_state ?_))
  · rw [hX] at he
    have he : (((s.line x).bridgedOn c (s.line y).tq.entries.length).conn) = some e := he
    rw [Line.bridgedOn_conn_eq] at he
    cases he; exact hoc
  · rw [hY, Line.bridgedOn_conn_eq] at he
    cases he; exact hod
  · rw [hX]
    show ((s.line x).bridgedOn c (s.line y).tq.entries.length).state ≠ .host
    rw [Line.bridgedOn_state]; decide
  · rw [hY, Line.bridgedOn_state]; decide

/-- An offered call is answered (R82). -/
theorem State.Sound.answer (h : s.Sound ⟨tx, drain, record, monitor, y :: ready⟩) (hc : s.Calling x y c d) (hx : x ∉ ready) (hm : x ∉ monitor)
    (hry : (s.line y).ready = true) : (s.answer x y).Sound ⟨tx, drain, record, monitor, ready⟩ := by
  have hxy := hc.ne
  have hrx : (s.line x).ready = true := ((h.lines x).ready (List.not_mem_cons_of_ne_of_not_mem hxy hx)).2.1 hc.caller
  have hprofile : profileOk c.escCount c.guardTime = true := by
    have := (h.lines x).watched hm
    unfold Line.Watched at this
    rw [hc.connX] at this
    exact this.1
  have hay : (s.line y).answerTimer = none := Option.not_isSome_iff_eq_none.mp fun ht => by
    have := (h.lines y).line.answering ht
    rw [hc.called] at this
    cases this
  rw [State.answer_eq hxy hc.connX hc.connY hc.peerX hc.peerY]
  refine (h.bridgedPair (t := (s.modLine x fun l => { l.bridgedOn c (s.line y).tq.entries.length with
          answerTimer := none, idleTimer := idleTimerOf c.idleLimit }).modLine y fun l =>
            l.bridgedOn d (s.line x).tq.entries.length) hxy (fun e he => ?_) (fun e he => ?_) ?_ ?_ (fun n hnx hny => ?_) rfl (fun _ => rfl)
    hc.peerX hc.peerY hc.roleX hc.partsX hc.partsY hc.originX hc.originY hprofile (.inr (.inl hc.caller)) (.inr (.inr hc.called)) hay hrx
    hry).of_lines rfl rfl rfl
  · rw [hc.connX] at he; cases he; exact ⟨hc.peerX, hc.originX⟩
  · rw [hc.connY] at he; cases he; exact ⟨hc.peerY, hc.originY⟩
  · rw [State.line_modLine_other _ _ hxy, State.line_modLine_same]
  · rw [State.line_modLine_same, State.line_modLine_other _ _ hxy.symm]
  · rw [State.line_modLine_other _ _ hny, State.line_modLine_other _ _ hnx]

/-- A call answered at acceptance (R81, R82). -/
theorem State.Sound.acceptCall_answer (h : s.Sound .none) (hxy : x ≠ y) (hok : connectOk s = true) (hx : (s.line x).state = .host)
    (hy : (s.line y).state = .host) (hrx : (s.line x).ready = true) (hry : (s.line y).ready = true) :
    ((s.acceptCall x y).answer x y).Sound .none := by
  have hcx := h.conn_none (.inr (.inl hx))
  have hcy := h.conn_none (.inr (.inl hy))
  obtain ⟨-, -, hcount, hguard, -⟩ := (connectOk_iff s).mp hok
  have hprofile := (profileOk_iff (s.param 4) (s.param 5)).mpr ⟨hcount, hguard⟩
  have hay : (s.line y).answerTimer = none := Option.not_isSome_iff_eq_none.mp fun ht => by
    have := (h.lines y).line.answering ht
    rw [hy] at this
    cases this
  set u := s.acceptCall x y with hu
  have hux : u.line x = { s.line x with conn := some (orderedPart s y .caller) } := by
    rw [hu, State.acceptCall, State.line_modLine_other _ _ hxy, State.line_modLine_same]
  have huy : u.line y = { s.line y with conn := some (orderedPart s x .called) } := by
    rw [hu, State.acceptCall, State.line_modLine_same, State.line_modLine_other _ _ hxy.symm]
  rw [State.answer_eq hxy (c := orderedPart s y .caller) (d := orderedPart s x .called) (by rw [hux]) (by rw [huy]) rfl rfl]
  refine ((h.owe_ready y).bridgedPair (c := orderedPart s y .caller) (d := orderedPart s x .called) (t := (u.modLine x fun l =>
        { l.bridgedOn (orderedPart s y .caller) (u.line y).tq.entries.length with
          answerTimer := none, idleTimer := idleTimerOf (orderedPart s y .caller).idleLimit }).modLine y fun l =>
            l.bridgedOn (orderedPart s x .called) (u.line x).tq.entries.length) hxy (fun e he => by rw [hcx] at he; cases he)
    (fun e he => by rw [hcy] at he; cases he) ?_ ?_ (fun n hnx hny => ?_) rfl (fun _ => rfl) rfl rfl rfl ?_ ?_ rfl rfl hprofile (.inl hx) (.inl hy)
    hay hrx hry).of_lines rfl rfl rfl
  · rw [State.line_modLine_other _ _ hxy, State.line_modLine_same, hux, huy, Line.bridgedOn_conn]
  · rw [State.line_modLine_same, State.line_modLine_other _ _ hxy.symm, hux, huy, Line.bridgedOn_conn]
  · rw [State.line_modLine_other _ _ hny, State.line_modLine_other _ _ hnx, hu, State.acceptCall, State.line_modLine_other _ _ hny,
      State.line_modLine_other _ _ hnx]
  · simp [pairedParts, orderedPart]
  · simp [pairedParts, orderedPart]

/-- A call ends without an answer (R86). -/
theorem State.Sound.failCall (h : s.Sound ⟨tx, drain, record, monitor, x :: ready⟩) (hc : s.Calling x y c d) (hmx : x ∉ monitor)
    (hmy : y ∉ monitor) (r : FailReason) : (s.failCall x y r).Sound ⟨tx, drain, record, monitor, ready⟩ := by
  have hxy := hc.ne
  set u := (s.modLine x fun l => { l with state := .host, conn := none, answerTimer := none }).modLine y fun l =>
    { l with state := .host, conn := none, answerTimer := none } with hu
  have hX : u.line x = { s.line x with state := .host, conn := none, answerTimer := none } := by
    rw [hu, State.line_modLine_other _ _ hxy, State.line_modLine_same]
  have hY : u.line y = { s.line y with state := .host, conn := none, answerTimer := none } := by
    rw [hu, State.line_modLine_same, State.line_modLine_other _ _ hxy.symm]
  have hready : ∀ n, (u.line n).state = .host → (u.line n).ReadyOk := fun n hn => by
    rw [Line.ReadyOk, hn]; exact ⟨nofun, nofun, nofun⟩
  have hboth : u.Sound ⟨tx, drain, x :: y :: record, monitor, ready⟩ := by
    refine h.ordered (x := x) (y := y) (fun e he => ?_) (fun e he => ?_)
      (fun n hnx hny => by rw [hu, State.line_modLine_other _ _ hny, State.line_modLine_other _ _ hnx]) rfl (fun _ => rfl)
      ((h.lines x).restated (.inr (.inl hc.caller)) hX (.inl rfl) nofun (State.peerOk_none (by rw [hX]) (by rw [hX]; exact .inr (.inl rfl))) rfl
        id hmx nofun fun _ => hready x (by rw [hX]))
      ((h.lines y).restated (.inr (.inr hc.called)) hY (.inl rfl) nofun (State.peerOk_none (by rw [hY]) (by rw [hY]; exact .inr (.inl rfl))) rfl
        id hmy nofun fun _ => hready y (by rw [hY]))
      (fun e he => by rw [hX] at he; cases he) (fun e he => by rw [hY] at he; cases he)
      (fun n hnx _ => ⟨id, id, id, fun hm => (List.mem_cons.mp hm).resolve_left hnx⟩)
      (fun n hn => List.mem_cons_of_mem _ (List.mem_cons_of_mem _ hn)) (.inl (List.mem_cons_self ..))
      (.inl (List.mem_cons_of_mem _ (List.mem_cons_self ..)))
    · rw [hc.connX] at he; cases he; exact ⟨hc.peerX, hc.originX⟩
    · rw [hc.connY] at he; cases he; exact ⟨hc.peerY, hc.originY⟩
  have hposted := hboth.of_lines (t := { u with host := postRecord .callFailed (lineByte x) (lineByte y) (failInfo r) s.host }) rfl rfl rfl
  rcases s.failCall_evaluatedBoth x y r with ⟨v, hv, hw⟩ | ⟨v, hv, hw⟩
  · exact (hposted.evaluated hv).evaluated hw
  · exact ((hposted.mono (e := ⟨tx, drain, y :: x :: record, monitor, ready⟩) (fun _ => ⟨id, id, id, id⟩) fun n hn =>
      (List.Perm.swap x y record).mem_iff.mpr hn).evaluated hv).evaluated hw

theorem State.Sound.endCall (h : s.Sound ⟨tx, drain, record, monitor, ready⟩) (hs : (s.line x).state = .calling ∨ (s.line x).state = .offered)
    (hm : monitor = []) (r : FailReason) : (s.endCall x r).Sound ⟨tx, drain, record, monitor, ready⟩ := by
  subst hm
  rcases hs with hs | hs
  · obtain ⟨y, c, d, hc⟩ := h.calling hs
    rw [State.endCall_caller hc.connX hc.roleX, hc.peerX]
    exact (h.owe_ready x).failCall hc nofun nofun r
  · obtain ⟨z, c, d, hc⟩ := h.offered hs
    rw [State.endCall_called hc.connY hc.roleY, hc.peerY]
    exact (h.owe_ready z).failCall hc nofun nofun r
end

end Sys2Proof.Machine

/-! PROOF. The commands of one line and of the Standing List keep the invariant behind O6. -/

namespace Sys2Proof.Machine

set_option Elab.async false

section
variable {s t : State} {tx drain record monitor ready : List LineNo} {n : LineNo}

/-! ### Lines put into and out of service -/

/-- A line without optional parts that goes between CLOSED and HOST, seen by no other line. -/
theorem State.Sound.attached {d : Debts} (h : s.Sound d) (hs : (s.line n).conn = none) (hsame : ∀ m, m ≠ n → t.line m = s.line m)
    (hport : t.port = s.port) (hrecord : ∀ i, t.record i = s.record i) (hc : (t.line n).conn = none)
    (hstate : (t.line n).state = .closed ∨ (t.line n).state = .host) (hopen : (t.line n).state = .closed ∨ s.port.state ≠ .loading)
    (hline : (t.line n).Sound) (hheld : (t.line n).heldAt (t.line n).rq.entries.length = (t.line n).inputHeld)
    (hserved : n ∉ d.tx → (t.line n).Served) (hmonitor : (t.line n).monitor = .offValue) :
    t.Sound { d with record := n :: d.record } := by
  have hconn : ∀ m, (t.line m).conn = (s.line m).conn := fun m => by
    by_cases hm : m = n
    · rw [hm, hc, hs]
    · rw [hsame m hm]
  refine h.change (· = n) (h.lone hs) (fun m hm => hsame m hm) hport ?_ (fun m _ => ⟨id, id, id, id⟩) (h.standing.congr hconn hrecord)
    (fun i => by rw [hrecord]; exact h.records i)
    (h.quiet.of_eligible (fun i c hi => hrecord i ▸ hi) fun m hm he => ⟨List.not_mem_of_not_mem_cons hm, ?_⟩)
  · rintro m rfl
    have hnot : (t.line m).state ≠ .bridged ∧ (t.line m).state ≠ .calling ∧ (t.line m).state ≠ .offered ∧ (t.line m).state ≠ .draining := by
      rcases hstate with hst | hst <;> rw [hst] <;> decide
    obtain ⟨hb, hca, ho, hd⟩ := hnot
    refine ⟨⟨hline, State.peerOk_none hc (hstate.imp_right .inl), ?_, fun hl => ?_⟩, hserved, fun _ => Line.undrained_of_state hd,
      fun _ => ?_, fun _ => ⟨fun e => absurd e hb, fun e => absurd e hca, fun e => absurd e ho⟩⟩
    · rw [State.destination_of_ne hb]
      exact hheld
    · exact hopen.resolve_right fun hp => hp (hport ▸ hl)
    · unfold Line.Watched
      rw [hc]
      exact hmonitor
  · rwa [hsame m fun e => hm (e ▸ List.mem_cons_self ..)] at he

theorem State.Sound.monitor_off {d : Debts} (h : s.Sound d) (hm : n ∉ d.monitor) (hc : (s.line n).conn = none) :
    (s.line n).monitor = .offValue := by
  have := (h.lines n).watched hm
  unfold Line.Watched at this
  rwa [hc] at this

/-- OPEN_LINE of a CLOSED line (R70). -/
theorem State.Sound.openLine (h : s.Sound ⟨tx, drain, record, monitor, ready⟩) (hm : n ∉ monitor) (hs : (s.line n).state = .closed)
    (hp : s.port.state ≠ .loading) : (s.openLine n).Sound ⟨tx, drain, record, monitor, ready⟩ := by
  have hl := h.lines n
  have hc := h.conn_none (.inl hs)
  have hnew : (s.modLine n fun l => { l with state := .host, rx := .waitMark l.settings.format }).line n =
      { s.line n with state := .host, rx := .waitMark (s.line n).settings.format } := State.line_modLine_same ..
  refine State.Sound.evaluateLine (h.attached (t := s.modLine n fun l => { l with state := .host, rx := .waitMark l.settings.format }) hc
    (fun m hm => State.line_modLine_other _ _ hm) rfl (fun _ => rfl) (by rw [hnew]; exact hc) (by rw [hnew]; exact .inr rfl) (.inr hp) ?_ ?_
    (fun hx => by rw [hnew]; exact hl.served hx) (by rw [hnew]; exact h.monitor_off hm hc))
  · rw [hnew]
    exact { hl.line with
      closed := nofun
      receiver := ⟨nofun, nofun⟩
      answering := fun ht => by have := hl.line.answering ht; rw [hs] at this; cases this
      draining := fun ht => by have := hl.line.draining ht; rw [hs] at this; cases this
      idling := fun ht => by have := (hl.line.idling ht).1; rw [hs] at this; cases this
      tally := ⟨hl.line.tally.1, fun ht => by have := hl.line.tally.2 ht; rw [hs] at this; cases this⟩ }
  · have := hl.held
    rw [State.destination_of_ne (by rw [hs]; decide)] at this
    rw [hnew]
    exact this

theorem State.Sound.closeLine (h : s.Sound .none) (hs : (s.line n).state = .host) : (s.closeLine n).Sound .none := by
  have hl := h.lines n
  have hc := h.conn_none (.inr (.inl hs))
  rw [State.closeLine_eq]
  set t := (s.withFree (s.freeList ++ (s.line n).rq.chain ++ (s.line n).tq.chain)).modLine n fun l =>
      { l with rq := l.rq.emptied, tq := l.tq.emptied, state := .closed, rx := .disabled, inputHeld := false, announced := .running
               receivedPause := false, overrun := false } with ht
  have hnew : t.line n = { s.line n with rq := (s.line n).rq.emptied, tq := (s.line n).tq.emptied, state := .closed, rx := .disabled
                                         inputHeld := false, announced := .running, receivedPause := false, overrun := false } :=
    State.line_modLine_same ..
  refine State.Sound.pay_record (n := n) (h.attached (t := t) hc (fun m hm => State.line_modLine_other _ _ hm) rfl (fun _ => rfl)
    (by rw [hnew]; exact hc) (by rw [hnew]; exact .inl rfl) (by rw [hnew]; exact .inl rfl) ?_ ?_ (fun hx => ?_)
    (by rw [hnew]; exact h.monitor_off nofun hc)) (Line.not_eligible_of_state (by rw [hnew]; nofun))
  · rw [hnew]
    exact { hl.line with
      closed := fun _ => ⟨rfl, rfl, rfl, rfl, rfl, rfl⟩
      receiver := ⟨fun _ => rfl, fun _ => rfl⟩
      answering := fun ht => by have := hl.line.answering ht; rw [hs] at this; cases this
      draining := fun ht => by have := hl.line.draining ht; rw [hs] at this; cases this
      idling := fun ht => by have := (hl.line.idling ht).1; rw [hs] at this; cases this
      tally := ⟨hl.line.tally.1, fun ht => by have := hl.line.tally.2 ht; rw [hs] at this; cases this⟩ }
  · rw [hnew]
    exact Line.heldAt_zero (l := { s.line n with rq := (s.line n).rq.emptied, tq := (s.line n).tq.emptied, state := .closed, rx := .disabled
                                                 inputHeld := false, announced := .running, receivedPause := false, overrun := false })
      hl.line.settings
  · rw [hnew]
    exact fun _ => ⟨by simp [Line.codePending, announcedHeld], .inr rfl⟩

/-! ### Releases -/

/-- A release of a BRIDGED line, whose own monitor and ready level may be owed (R103). -/
theorem State.Sound.releaseLine (h : s.Sound ⟨[], drain, record, n :: monitor, n :: ready⟩) (hs : (s.line n).state = .bridged)
    (r : ReleaseReason) : (s.release n r).Sound ⟨[], drain, record, monitor, ready⟩ := by
  obtain ⟨c, hc⟩ := (h.lines n).peer.conn_some (.inl hs)
  have hpeer : s.Sound ⟨[], drain, record, n :: c.peer :: monitor, n :: c.peer :: ready⟩ :=
    h.mono (fun m => ⟨id, id, by simp; tauto, by simp; tauto⟩) fun _ => id
  exact hpeer.release (h.bridged hs hc) List.not_mem_nil List.not_mem_nil r

/-! ### Settings -/

/-- Input-held taken anew at an occupancy agrees with it (R43, R54). -/
theorem Line.heldAt_of_eq {l m : Line} {k : Nat} (hh : l.hold = m.hold) (hi : l.inputHeld = m.heldAt k) : l.heldAt k = l.inputHeld := by
  simp only [Line.heldAt, hh, hi]
  split
  · rfl
  · split <;> rfl

/-- SET_FLOW (R54). -/
theorem State.Sound.applyFlow (h : s.Sound .none) {k : HoldSettings} (hk : k.Ok) (hs : (s.line n).state = .closed ∨ (s.line n).state = .host) :
    (s.applyFlow n k).Sound .none := by
  have hl := h.lines n
  have hb : (s.line n).state ≠ .bridged := by rcases hs with hs | hs <;> rw [hs] <;> decide
  have hsettings : ({ s.line n with hold := k } : Line).SettingsOk := ⟨hl.line.settings.1, hk⟩
  rw [State.applyFlow_eq k hb]
  refine State.Sound.kickTx ?_
  set t := s.modLine n fun l => { l with
      hold := k
      inputHeld := ({ l with hold := k } : Line).heldAt l.rq.entries.length
      announced := if l.hold.method = k.method then l.announced else .running
      receivedPause := if l.hold.method = k.method then l.receivedPause else false } with ht
  have hnew : t.line n = { s.line n with
      hold := k
      inputHeld := ({ s.line n with hold := k } : Line).heldAt (s.line n).rq.entries.length
      announced := if (s.line n).hold.method = k.method then (s.line n).announced else .running
      receivedPause := if (s.line n).hold.method = k.method then (s.line n).receivedPause else false } := State.line_modLine_same ..
  refine h.modLine (t := t) n (fun m hm => State.line_modLine_other _ _ hm) (by rw [hnew]; rfl) rfl (fun _ => rfl) ?_ ?_
    (fun hx => absurd (List.mem_cons_self ..) hx) (fun hx => by rw [hnew]; exact hl.undrained nofun)
    (fun hx => by rw [hnew]; exact hl.watched nofun) (fun hx => by rw [hnew]; exact hl.ready nofun)
    (fun m _ => ⟨nofun, nofun, nofun, nofun⟩) (fun _ => id) (.inr (by rw [hnew]; exact id))
  · rw [hnew]
    exact { hl.line with
      closed := fun hc => by
        obtain ⟨hr, hq, -, ha, hp, ho⟩ := hl.line.closed hc
        refine ⟨hr, hq, ?_, ?_, ?_, ho⟩
        · show ({ s.line n with hold := k } : Line).heldAt (s.line n).rq.entries.length = false
          rw [hr]
          exact Line.heldAt_zero hsettings
        · show (if _ then _ else _) = _
          rw [ha, ite_self]
        · show (if _ then _ else _) = _
          rw [hp, ite_self]
      settings := hsettings }
  · rw [State.destination_of_ne (by rw [hnew]; exact hb), State.queue, hnew]
    exact Line.heldAt_of_eq (m := { s.line n with hold := k }) rfl rfl
/-- SET_FORMAT (R16). -/
theorem State.Sound.setFormat {d : Debts} (h : s.Sound d) (fmt : Format) (opened : Bool) : (s.modLine n fun l =>
    { l with settings := { l.settings with format := fmt, openAtStart := opened }
             rx := l.rx.noteFormat l.settings.format }).Sound d := by
  have hrx : (s.line n).rx.noteFormat (s.line n).settings.format = .disabled ↔ (s.line n).rx = .disabled := by
    cases (s.line n).rx <;> simp [RxState.noteFormat]
  exact h.modLine_quiet n rfl rfl rfl rfl { (h.lines n).line with receiver := hrx.trans (h.lines n).line.receiver } id id rfl rfl

/-- SET_TIMING (R17). -/
theorem State.Sound.setTiming {d : Debts} (h : s.Sound d) {rx tx brk grace : Byte} (hok : timingOk rx brk = true) : (s.modLine n fun l =>
    { l with settings := { l.settings with rxThreshold := rx, txThreshold := tx, breakLength := brk, readyGrace := grace } }).Sound d :=
  h.modLine_quiet n rfl rfl rfl rfl { (h.lines n).line with settings := ⟨hok, (h.lines n).line.settings.2⟩ } id id rfl rfl

/-- SET_QUOTA (R36). -/
theorem State.Sound.setQuotas {d : Debts} (h : s.Sound d) (a b k m : Byte) : (s.setQuotas n a b k m).Sound d :=
  h.modLine_quiet n rfl rfl rfl rfl { (h.lines n).line with } id id rfl rfl

/-! ### The Standing List -/

/-- A record outside connections that is written keeps the standing law if its lines are not reserved elsewhere (R135, R136). -/
theorem State.StandingLaw.setRecord (h : s.StandingLaw) {i : SlotNo} {r : StandingRecord} (hold : ∀ c, s.record i ≠ .active c)
    (hnew : ∀ c, r ≠ .active c) (hr : RecordOk r) (hres : ∀ j m, j ≠ i → reserves r m = true → reserves (s.record j) m = false) :
    (s.setRecord i r).StandingLaw := by
  obtain ⟨hrecords, hdisjoint, horigins⟩ := h
  have hsame := State.record_setRecord_same s i r
  have hother : ∀ j, j ≠ i → (s.setRecord i r).record j = s.record j := fun j hj => State.record_setRecord_other s r hj
  have hnone : ∀ j m, j ≠ i → reserves r m = true → reserves (s.record j) m = true → False := fun j m hj hm hjm => by
    rw [hres j m hj hm] at hjm; cases hjm
  refine ⟨fun j => ?_, fun j k m hj hk => ?_, fun m j hm => ?_⟩
  · by_cases hj : j = i
    · rw [hj, hsame]
      cases r with
      | empty => trivial
      | idle c => exact hr.1
      | armed c => exact hr.1
      | active c => exact absurd rfl (hnew c)
    · rw [hother j hj]
      exact hrecords j
  · by_cases hji : j = i
    · by_cases hki : k = i
      · rw [hji, hki]
      · rw [hji, hsame] at hj
        rw [hother k hki] at hk
        exact (hnone k m hki hj hk).elim
    · rw [hother j hji] at hj
      by_cases hki : k = i
      · rw [hki, hsame] at hk
        exact (hnone j m hji hk hj).elim
      · rw [hother k hki] at hk
        exact hdisjoint j k m hj hk
  · obtain ⟨c, hc, hmc⟩ := horigins m j hm
    exact ⟨c, by rw [hother j fun e => hold c (e ▸ hc)]; exact hc, hmc⟩

theorem State.Sound.setRecord (h : s.Sound ⟨tx, drain, record, monitor, ready⟩) {i : SlotNo} {r : StandingRecord}
    (hold : ∀ c, s.record i ≠ .active c) (hnew : ∀ c, r ≠ .active c) (hr : RecordOk r)
    (hres : ∀ j m, j ≠ i → reserves r m = true → reserves (s.record j) m = false) (howed : ∀ c, r = .armed c → c.lineA ∈ record) :
    (s.setRecord i r).Sound ⟨tx, drain, record, monitor, ready⟩ where
  lines m := (h.lines m).congr rfl (fun _ _ => rfl) rfl (.refl _ m)
  standing := h.standing.setRecord hold hnew hr hres
  port := h.port
  records j := by
    rw [State.record_setRecord]
    split
    · exact hr
    · exact h.records j
  quiet j c hj ha hb := by
    rw [State.record_setRecord] at hj
    split at hj
    · exact absurd (howed c hj) ha
    · exact h.quiet j c hj ha hb

/-- The evaluation of one ARMED record is that of its line a (R136, R140). -/
theorem State.evaluateSlot_evaluated {i : SlotNo} {c : Contents} (h : s.StandingLaw) (hi : s.record i = .armed c) :
    s.Evaluated (s.evaluateSlot i) c.lineA := by
  have heq : s.evaluateSlot i = if s.establishable c then s.establish i c else s := by rw [State.evaluateSlot, hi]
  rw [heq]
  refine ⟨fun hnone => ?_, fun j k hj hk hne _ hcond => ?_⟩
  · rw [if_neg (mt (s.establishable_iff c).mp (hnone i c hi (.inl rfl)))]
  · obtain rfl : i = j := h.2.1 i j c.lineA (by rw [hi]; exact reserves_armed.mpr (.inl rfl)) (by rw [hj]; exact reserves_armed.mpr hk)
    rw [hi] at hj
    cases hj
    rw [if_pos ((s.establishable_iff c).mpr hcond), State.establish_eq hne hcond]

/-- STANDING_ARM of an IDLE record (R136, R140). -/
theorem State.Sound.standingArm (h : s.Sound .none) {i : SlotNo} {c : Contents} (hi : s.record i = .idle c)
    (ha : s.reservedElsewhere i c.lineA = false) (hb : s.reservedElsewhere i c.lineB = false) :
    ((s.setRecord i (.armed c)).evaluateSlot i).Sound .none := by
  have hok : c.Ok := by
    have := h.records i
    rwa [hi] at this
  have hfree : ∀ m, s.reservedElsewhere i m = false → ∀ j, j ≠ i → reserves (s.record j) m = false := fun m hm j hj => by
    by_contra hr
    rw [(s.reservedElsewhere_iff i m).mpr ⟨j, hj, by simpa using hr⟩] at hm
    cases hm
  have harmed := (h.owe_record c.lineA).setRecord (i := i) (r := .armed c) (fun k hk => by rw [hi] at hk; cases hk) nofun hok
    (fun j m hj hm => (reserves_armed.mp hm).elim (fun e => e ▸ hfree _ ha j hj) fun e => e ▸ hfree _ hb j hj)
    (fun k hk => by cases hk; exact List.mem_cons_self ..)
  exact harmed.evaluated (State.evaluateSlot_evaluated harmed.standing (State.record_setRecord_same s i _))

/-- STANDING_PUT, STANDING_DISARM and STANDING_DROP (R135, R137). -/
theorem State.Sound.setRecord_unarmed (h : s.Sound .none) {i : SlotNo} {r : StandingRecord} (hold : ∀ c, s.record i ≠ .active c)
    (hnew : ∀ m, reserves r m = false) (hr : RecordOk r) : (s.setRecord i r).Sound .none := by
  have hnone : ∀ c, r = .armed c ∨ r = .active c → False := by
    rintro c (rfl | rfl) <;> simpa [reserves, reservedLines] using hnew c.lineA
  exact h.setRecord hold (fun c e => hnone c (.inr e)) hr (fun _ m _ hm => by rw [hnew] at hm; cases hm) fun c e => (hnone c (.inl e)).elim

/-! ### The commands of the host -/

theorem State.discardRq_line_host (hs : (s.line n).state = .host) : ((s.discardRq n).line n).state = .host := by
  have hb : (s.line n).state ≠ .bridged := by rw [hs]; decide
  rw [State.discardRq_eq fun h => absurd h hb, State.line_modLine_same, State.withFree_line, if_neg hb, Line.afterOccupancy_state]
  exact hs


/-- Every command of the host but a reset and those of the Memory Port. -/
theorem State.Sound.runCommand (h : s.Sound .none) (k : HostCommand) (reset : (s.resetAll .done).Sound .none) (save : (cmdSave s).Sound .none)
    (reload : (cmdReload s).Sound .none) : (runCommand k s).Sound .none := by
  have hleave : ∀ r, (s.leave r).Sound .none := h.leave
  cases k
  case resetPart => exact reset
  case save => exact save
  case reload => exact reload
  case openLine => exact cmdOpenLine_rule (P := (State.Sound · .none)) hleave fun hp n hn => (h.openLine List.not_mem_nil hn hp).leave _
  case closeLine => exact cmdCloseLine_rule (P := (State.Sound · .none)) hleave fun n hn => (h.closeLine hn).leave _
  case queryLine => exact cmdQueryLine_rule (P := (State.Sound · .none)) hleave fun v => (h.modHost _).leave _
  case setFormat => exact cmdSetFormat_rule (P := (State.Sound · .none)) hleave fun n fmt o => (h.setFormat fmt o).leave _
  case setTiming => exact cmdSetTiming_rule (P := (State.Sound · .none)) hleave fun n _ _ _ _ hok => (h.setTiming hok).leave _
  case setFlow => exact cmdSetFlow_rule (P := (State.Sound · .none)) hleave fun n k hk hn => (h.applyFlow hk hn).leave _
  case setQuota => exact cmdSetQuota_rule (P := (State.Sound · .none)) hleave fun n _ _ _ _ _ _ _ _ => (h.setQuotas ..).leave _
  case sendBreak =>
    exact cmdSendBreak_rule (P := (State.Sound · .none)) hleave fun n t hn ht =>
      (h.appendTold List.not_mem_nil (by rw [hn]; decide) ht).leave _
  case flush =>
    have hopen : ∀ {m}, (s.line m).state = .host → (s.line m).state ≠ .closed := fun hm => by rw [hm]; decide
    exact cmdFlush_rule (P := (State.Sound · .none)) hleave (fun n hn => (h.discardRq hn).leave _)
      (fun n hn => (h.discardTq List.not_mem_nil hn).leave _)
      fun n hn => ((h.discardRq (hopen hn)).discardTq List.not_mem_nil (State.discardRq_line_host hn)).leave _
  case connect =>
    exact cmdConnect_rule (P := (State.Sound · .none)) hleave
      (fun x y hxy hok hx hy _ _ hrx hry => (h.acceptCall_answer hxy hok hx hy hrx hry).leave _)
      fun x y hxy hok hx hy _ _ hrx hry => (h.offerCall hxy hok hx hy hrx hry).leave _
  case release =>
    exact cmdRelease_rule (P := (State.Sound · .none)) hleave (fun n hn => (h.endCall hn rfl _).leave _)
      (fun n hn => (((h.owe_monitor n).owe_ready n).releaseLine hn _).leave _)
      fun n hn => (h.cutDrain List.not_mem_nil hn).leave _
  case setPart =>
    exact cmdSetPart_rule (P := (State.Sound · .none)) hleave fun d _ =>
      (h.of_lines (t := { s with drainLimit := d }) rfl rfl rfl).leave _
  case standingPut =>
    refine cmdStandingPut_rule (P := (State.Sound · .none)) hleave fun i c hc hi => ?_
    refine (h.setRecord_unarmed (r := .idle c) (fun d hd => ?_) (fun _ => rfl) hc).leave _
    rcases hi with hi | ⟨e, hi⟩ <;> rw [hi] at hd <;> cases hd
  case standingArm => exact cmdStandingArm_rule (P := (State.Sound · .none)) hleave fun i c hi ha hb => (h.standingArm hi ha hb).leave _
  case standingDisarm =>
    refine cmdStandingDisarm_rule (P := (State.Sound · .none)) hleave fun i c hi => ?_
    have hok := h.records i
    rw [hi] at hok
    exact (h.setRecord_unarmed (r := .idle c) (fun d hd => by rw [hi] at hd; cases hd) (fun _ => rfl) hok).leave _
  case standingDrop =>
    exact cmdStandingDrop_rule (P := (State.Sound · .none)) hleave fun i hi =>
      (h.setRecord_unarmed (r := .empty) hi (fun _ => rfl) trivial).leave _
  case queryStanding => exact cmdQueryStanding_rule (P := (State.Sound · .none)) hleave fun v => (h.modHost _).leave _
end

end Sys2Proof.Machine

/-! PROOF. The events of the Line Ports and of the timers keep the invariant behind O6. -/

namespace Sys2Proof.Machine

set_option Elab.async false

section
variable {s t : State} {tx drain record monitor ready : List LineNo} {n x y : LineNo} {c : Connection}

/-! ### Escape monitors -/

/-- The monitor of a line may be owed: a change of it. -/
theorem State.Sound.modMonitor (h : s.Sound ⟨tx, drain, record, monitor, ready⟩) (x : LineNo) (g : Monitor → Monitor) :
    (s.modLine x fun l => { l with monitor := g l.monitor }).Sound ⟨tx, drain, record, x :: monitor, ready⟩ :=
  have hx := h.lines x
  h.modLine_keeps x rfl rfl rfl rfl { hx.line with } hx.served hx.undrained (fun hm => absurd (List.mem_cons_self ..) hm) hx.ready
    (fun _ _ => ⟨id, id, List.mem_cons_of_mem x, id⟩) (fun _ => id) (.inr id)

/-- A monitor set that agrees with the connection (R126). -/
theorem State.Sound.setMonitor (h : s.Sound ⟨tx, drain, record, monitor, ready⟩) (hb : s.Bridged x y c) {g : Monitor → Monitor}
    (hg : MonitorOk (g (s.line x).monitor) c) :
    (s.modLine x fun l => { l with monitor := g l.monitor }).Sound ⟨tx, drain, record, monitor, ready⟩ := by
  obtain ⟨-, hs, -, hc, -⟩ := hb
  refine (h.modMonitor x g).pay_monitor ?_
  rw [State.line_modLine_same]
  simp only [Line.Watched, hc, if_pos hs]
  exact ⟨hg.1, hg⟩

theorem State.Sound.monitorOk {d : Debts} (h : s.Sound d) (hm : x ∉ d.monitor) (hb : s.Bridged x y c) : MonitorOk (s.line x).monitor c := by
  obtain ⟨-, hs, -, hc, -⟩ := hb
  have hw := (h.lines x).watched hm
  simp only [Line.Watched, hc, if_pos hs] at hw
  exact hw.2

theorem startTimer_isSome {k : Nat} : (startTimer k).isSome = true ↔ k ≠ 0 := by
  unfold startTimer
  split <;> simp_all

theorem guardTimer_isSome (c : Connection) : (guardTimer c).isSome = true ↔ c.guardTime ≠ 0 := by
  rw [guardTimer, startTimer_isSome, ne_eq, ne_eq, ← BitVec.toNat_inj]
  rfl

/-- A monitor that starts again without a match agrees with its connection (R123, R124). -/
theorem monitorOk_started {m : Monitor} (h : MonitorOk m c) (hm : m.state ≠ .off) : MonitorOk (startedMonitor c) c := by
  obtain ⟨hcount, hflag⟩ := h.2.1.mp hm
  have hstart : startedMonitor c = monitorAtStart c := by
    rw [startedMonitor_eq, monitorAtStart, if_neg (not_or.mpr ⟨hcount, by simp [hflag]⟩)]
  rw [hstart]
  exact profileOk_monitorAtStart h.1

/-- The monitor that goes on after an escape character which is not the last, or is the last under a guard (R123, R124). -/
theorem monitorOk_held {m : Monitor} {e : Entry} (h : MonitorOk m c) (hm : m.state = .ready ∨ m.state = .counting)
    (he : isEscape c e = true) (hk : ¬ (m.count + 1 = c.escCount.toNat ∧ c.guardTime = 0)) :
    MonitorOk { state := if m.count + 1 = c.escCount.toNat then .confirming else .counting, count := m.count + 1, silence := guardTimer c
                holding := m.holding ++ [e] } c := by
  obtain ⟨hprofile, hon, hlength, hlist, hstate⟩ := h
  have hoff : m.state ≠ .off := by rcases hm with hm | hm <;> rw [hm] <;> decide
  have hcount : m.count < c.escCount.toNat := by
    rcases hm with hm | hm <;> rw [hm] at hstate
    · have hpos : c.escCount.toNat ≠ 0 := fun h0 => (hon.mp hoff).1 (BitVec.eq_of_toNat_eq h0)
      have := hstate.1
      omega
    · exact hstate.2.1
  have hentry : e = { kind := .data, value := c.escChar } := by
    obtain ⟨k, v⟩ := e
    simp only [isEscape, Bool.and_eq_true, beq_iff_eq] at he
    obtain ⟨rfl, rfl⟩ := he
    rfl
  refine ⟨hprofile, ⟨fun _ => hon.mp hoff, fun _ => ?_⟩, by simp [hlength], fun e' he' => ?_, ?_⟩
  · dsimp only
    split <;> decide
  · rcases List.mem_append.mp he' with he' | he'
    · exact hlist e' he'
    · rw [List.mem_singleton.mp he', hentry]
  · by_cases hlast : m.count + 1 = c.escCount.toNat
    · have hg : c.guardTime ≠ 0 := fun hg => hk ⟨hlast, hg⟩
      simp only [if_pos hlast]
      exact ⟨hlast, hg, (guardTimer_isSome c).mpr hg⟩
    · simp only [if_neg hlast]
      exact ⟨by omega, by omega, guardTimer_isSome c⟩

/-! ### Received entries -/

theorem State.Sound.passOn (h : s.Sound .none) (hb : s.Bridged x c.peer c) (e : Entry) : (s.passOn x c e).Sound .none := by
  by_cases hr : e.kind = .brk ∧ c.breakAction = .release
  · have heq : s.passOn x c e = s.release x .brk := by simp only [State.passOn, hr]
    rw [heq]
    exact ((h.owe_monitor x).owe_ready x).releaseLine hb.2.1 _
  · rw [State.passOn_eq_passedOn hb.2.2.1 fun hk => ?_]
    · exact h.passedOn hb List.not_mem_nil e
    · cases ha : c.breakAction with
      | forward => rfl
      | release => exact absurd ⟨hk, ha⟩ hr

theorem State.Sound.restartIdle {d : Debts} (h : s.Sound d) (hb : s.Bridged x c.peer c) : (s.restartIdle x c).Sound d := by
  obtain ⟨-, hx, hy, hc, -⟩ := hb
  obtain ⟨e, he, -, hparts⟩ := h.mutual hc rfl
  have hcaller : (s.line (callerCalled x c).1).state = .bridged ∧ (s.line (callerCalled x c).1).conn.map (·.role) = some .caller := by
    unfold callerCalled
    cases hr : c.role with
    | caller => exact ⟨hx, by rw [hc, Option.map_some, hr]⟩
    | called =>
      refine ⟨hy, ?_⟩
      simp only [pairedParts, Bool.and_eq_true, beq_iff_eq, bne_iff_ne] at hparts
      obtain ⟨⟨⟨⟨⟨⟨⟨-, hrole⟩, -⟩, -⟩, -⟩, -⟩, -⟩, -⟩ := hparts
      rw [he, Option.map_some]
      cases her : e.role with
      | caller => rfl
      | called => exact absurd (her.trans hr.symm) hrole
  exact h.modLine_quiet _ rfl rfl rfl rfl { (h.lines _).line with idling := fun _ => hcaller } id id rfl rfl

theorem State.Sound.detectEscape (h : s.Sound .none) (hs : (s.line x).state = .bridged) (g : Monitor → Monitor) :
    ((s.modLine x fun l => { l with monitor := g l.monitor }).release x .escape).Sound .none :=
  ((h.modMonitor x g).owe_ready x).releaseLine (by rw [State.line_modLine_same]; exact hs) _

theorem State.Sound.holdEscape (h : s.Sound .none) (hb : s.Bridged x c.peer c) {e : Entry}
    (hm : (s.line x).monitor.state = .ready ∨ (s.line x).monitor.state = .counting) (he : isEscape c e = true) :
    (s.holdEscape x c e).Sound .none := by
  unfold State.holdEscape State.detectEscape
  dsimp only
  split
  · rw [State.modLine_modLine]
    exact h.detectEscape hb.2.1 fun _ => { state := _, count := 0, silence := _, holding := [] }
  · next hk => exact h.setMonitor hb (g := fun _ => _) (monitorOk_held (h.monitorOk List.not_mem_nil hb) hm he hk)

/-- A match that fails hands over its list, and the monitor is set anew (R124, R125, R127). -/
theorem State.Sound.failMatch (h : s.Sound .none) (hb : s.Bridged x c.peer c) {g : Monitor → Monitor}
    (hg : MonitorOk (g { (s.line x).monitor with holding := [], count := 0 }) c) :
    ((s.failMatch x c).modLine x fun l => { l with monitor := g l.monitor }).Sound .none := by
  have hfail : s.failMatch x c = s.handedOver x c.peer := hb.handOver_eq
  have hafter := hb.handedOver x c.peer
  rw [hfail]
  have hset := (h.handedOver hb List.not_mem_nil).modMonitor x g
  have hmono : _ := hset.mono (e := ⟨[], [], [], [x], []⟩) (fun m => ⟨id, id, fun hm => by simpa using hm, id⟩) fun _ => id
  refine hmono.pay_monitor ?_
  obtain ⟨-, hs, -, hc, -⟩ := hafter
  rw [State.line_modLine_same]
  simp only [Line.Watched, hc, if_pos hs, State.handedOver_line_monitor]
  exact ⟨hg.1, hg⟩

theorem State.failMatch_bridged (hb : s.Bridged x c.peer c) : (s.failMatch x c).Bridged x c.peer c := by
  have hfail : s.failMatch x c = s.handedOver x c.peer := hb.handOver_eq
  rw [hfail]
  exact hb.handedOver x c.peer

theorem State.Sound.monitorTake (h : s.Sound .none) (hb : s.Bridged x c.peer c) (e : Entry) : (s.monitorTake x c e).Sound .none := by
  have hok := h.monitorOk List.not_mem_nil hb
  have hset : ∀ {u : State}, u.Bridged x c.peer c → ∀ g : Monitor → Monitor,
      (u.modLine x fun l => { l with monitor := g l.monitor }).Bridged x c.peer c := fun hu g =>
    hu.modLine (by intro; rfl) (by intro; rfl) x
  have hfailed : (s.line x).monitor.state ≠ .off → (((s.failMatch x c).settle x c).passOn x c e).Sound .none := fun hm =>
    (h.failMatch hb (g := fun _ => startedMonitor c) (monitorOk_started hok hm)).passOn
      (hset (State.failMatch_bridged hb) fun _ => startedMonitor c) e
  unfold State.monitorTake
  split
  · exact h.passOn hb e
  · next hm =>
    have hsettling : MonitorOk { (s.line x).monitor with silence := guardTimer c } c := by
      obtain ⟨h1, h2, h3, h4, h5⟩ := hok
      refine ⟨h1, h2, h3, h4, ?_⟩
      simp only [hm] at h5 ⊢
      exact ⟨h5.1, h5.2.1, (guardTimer_isSome c).mpr h5.2.1⟩
    exact (h.setMonitor hb (g := fun m => { m with silence := guardTimer c }) hsettling).passOn
      (hset hb fun m => { m with silence := guardTimer c }) e
  · next hm =>
    split
    · next he => exact h.holdEscape hb (.inl hm) he
    · exact (h.setMonitor hb (g := fun _ => startedMonitor c) (monitorOk_started hok (by rw [hm]; decide))).passOn
        (hset hb fun _ => startedMonitor c) e
  · next hm =>
    split
    · next he => exact h.holdEscape hb (.inr hm) he
    · exact hfailed (by rw [hm]; decide)
  · next hm => exact hfailed (by rw [hm]; decide)

theorem State.Sound.route (h : s.Sound .none) (x : LineNo) (e : Entry) : (s.route x e).Sound .none := by
  unfold State.route
  split
  · exact h
  · next c hs hc =>
    have hb := h.bridged hs hc
    exact (h.restartIdle hb).monitorTake (hb.modLine (by intro; rfl) (by intro; rfl) _) e
  · next hclosed _ => exact h.routeAppend_rq hclosed e

theorem State.Sound.receivedPause (h : s.Sound .none) (hs : (s.line x).state ≠ .closed) (hm : (s.line x).hold.method = .inband) :
    (s.modLine x fun l => { l with receivedPause := true }).Sound .none :=
  h.modLine_quiet x rfl rfl rfl rfl { (h.lines x).line with closed := fun hc => absurd hc hs }
    (fun hv ht => ⟨(hv ht).1, .inl (by simp [Line.outputHeld, hm])⟩) id rfl rfl

theorem State.Sound.deliver (h : s.Sound .none) (hs : (s.line x).state ≠ .closed) (e : Entry) : (s.deliver x e).Sound .none := by
  unfold State.deliver State.consumeCode
  dsimp only
  split
  · next hm =>
    split at hm
    · next hband =>
      split at hm
      · cases hm
        exact h.receivedPause hs hband.1
      · split at hm
        · cases hm
          have hx := h.lines x
          exact State.Sound.kickTx (h.modLine_keeps (e := ⟨[x], [], [], [], []⟩) x rfl rfl rfl rfl
            { hx.line with closed := fun hc => absurd hc hs } (fun hm => absurd (List.mem_cons_self ..) hm) hx.undrained hx.watched
            hx.ready (fun m _ => ⟨nofun, id, id, id⟩) (fun _ => id) (.inr id))
        · cases hm
    · cases hm
  · exact h.route x e

/-! ### Receivers -/

theorem State.Sound.setRx {d : Debts} (h : s.Sound d) (hr : (s.line n).rx ≠ .disabled) {r : RxState} (hne : r ≠ .disabled) :
    (s.modLine n fun l => { l with rx := r }).Sound d :=
  have hn := (h.lines n).line
  h.modLine_quiet n rfl rfl rfl rfl { hn with
    receiver := ⟨fun e => absurd e hne, fun e => absurd (hn.receiver.mpr e) hr⟩ } id id rfl rfl

theorem State.Sound.frameCompleted (h : s.Sound .none) (data : Byte) (parity stop : Bool) :
    (frameCompleted n data parity stop s).Sound .none := by
  unfold Machine.frameCompleted
  split
  · next fmt hr =>
    have hrx : (s.line n).rx ≠ .disabled := by rw [hr]; nofun
    refine (h.setRx hrx ?_).deliver ?_ _
    · rw [rxAfter_eq]; split <;> nofun
    · rw [State.line_modLine_same]
      exact fun hs => hrx ((h.lines n).line.receiver.mpr hs)
  all_goals exact h

theorem State.Sound.startBitSampled (h : s.Sound .none) (k : StartSample) : (startBitSampled n k s).Sound .none := by
  unfold Machine.startBitSampled
  split
  · next hr =>
    split
    · exact h
    · exact h.setRx (by rw [hr]; nofun) (by split <;> nofun)
  all_goals exact h

theorem State.Sound.markWaitEnded (h : s.Sound .none) : (markWaitEnded n s).Sound .none := by
  unfold Machine.markWaitEnded
  split
  · next hr => exact h.setRx (by rw [hr]; nofun) nofun
  all_goals exact h

theorem State.Sound.breakEnded (h : s.Sound .none) : (breakEnded n s).Sound .none := by
  unfold Machine.breakEnded
  split
  · next hr => exact h.setRx (by rw [hr]; nofun) nofun
  all_goals exact h

/-! ### Transmitters -/

theorem State.Sound.itemDone (h : s.Sound .none) : (itemDone n s).Sound .none := by
  have hdone : (s.line n).tx.isSpacing = false →
      (if ((s.modLine n fun l => { l with tx := .idle }).kickTx n |>.line n).tx == .idle then
        ((s.modLine n fun l => { l with tx := .idle }).kickTx n).drainCheck n
      else (s.modLine n fun l => { l with tx := .idle }).kickTx n).Sound .none := fun hs => by
    have hn := h.lines n
    have hidle : (s.modLine n fun l => { l with tx := .idle }).Sound ⟨[n], [n], [], [], []⟩ :=
      h.modLine_keeps n rfl rfl rfl rfl { hn.line with spacing := by rw [hn.line.spacing, hs]; rfl }
        (fun hx => absurd (List.mem_cons_self ..) hx) (fun hx => absurd (List.mem_cons_self ..) hx) hn.watched hn.ready
        (fun _ _ => ⟨nofun, nofun, id, id⟩) (fun _ => id) (.inr id)
    split
    · exact hidle.kickTx.drainCheck
    · next hb => exact hidle.kickTx.pay_drain (Line.undrained_of_busy (by simpa using hb))
  unfold Machine.itemDone
  split
  · next ht => exact hdone (by rw [ht]; rfl)
  · next ht => exact hdone (by rw [ht]; rfl)
  · next ht => exact hdone (by rw [ht]; rfl)
  all_goals exact h

theorem State.Sound.breakExpiry (h : s.Sound .none) : (breakExpiry n s).Sound .none := by
  unfold Machine.breakExpiry
  split
  · split
    · exact h.modLine_quiet n rfl rfl rfl rfl { (h.lines n).line with spacing := rfl } (fun _ => Line.served_of_busy nofun)
        (fun _ => Line.undrained_of_busy nofun) rfl rfl
    · exact h
  all_goals exact h

theorem State.Sound.hldiChanged (h : s.Sound .none) (level : Bool) : (hldiChanged n level s).Sound .none :=
  have hn := h.lines n
  State.Sound.kickTx (h.modLine_keeps (e := ⟨[n], [], [], [], []⟩) n rfl rfl rfl rfl { hn.line with }
    (fun hm => absurd (List.mem_cons_self ..) hm) hn.undrained hn.watched hn.ready (fun _ _ => ⟨nofun, id, id, id⟩) (fun _ => id) (.inr id))

/-! ### Ticks and ready levels -/

theorem tickTimer_isSome (t : Timer) : (tickTimer t).isSome = t.isSome := by cases t <;> rfl

theorem tickTimer_eq_none {t : Timer} : tickTimer t = none ↔ t = none := by cases t <;> simp [tickTimer]

theorem monitorOk_ticked {m : Monitor} (h : MonitorOk m c) : MonitorOk { m with silence := tickTimer m.silence } c := by
  obtain ⟨h1, h2, h3, h4, h5⟩ := h
  refine ⟨h1, h2, h3, h4, ?_⟩
  cases hm : m.state <;> rw [hm] at h5 <;> dsimp only at h5 ⊢
  case off => rw [h5]; rfl
  all_goals simpa only [tickTimer_isSome, tickTimer_eq_none] using h5

theorem Line.sampleReady_eq (l : Line) (first raw : Bool) :
    ∃ k d, l.sampleReady first raw = { l with rdySample := raw, graceCount := k, readyDue := d } := by
  unfold Line.sampleReady
  split
  · exact ⟨_, _, rfl⟩
  · split <;> exact ⟨_, _, rfl⟩

theorem State.Sound.ticked {d : Debts} (h : s.Sound d) (n : LineNo) (first raw : Bool) :
    (s.modLine n fun l => l.tick.sampleReady first raw).Sound d := by
  obtain ⟨k, due, heq⟩ := (s.line n).tick.sampleReady_eq first raw
  have hn := h.lines n
  rw [State.modLine_congr (g := fun l => { l.tick with rdySample := raw, graceCount := k, readyDue := due }) heq]
  refine h.modLine_keeps n rfl rfl rfl rfl { hn.line with
      answering := fun ht => hn.line.answering (tickTimer_isSome _ ▸ ht)
      draining := fun ht => hn.line.draining (tickTimer_isSome _ ▸ ht)
      idling := fun ht => hn.line.idling (tickTimer_isSome _ ▸ ht)
      spacing := (tickTimer_isSome _).trans hn.line.spacing }
    hn.served hn.undrained (fun hm => ?_) hn.ready (fun m _ => .refl d m) (fun _ => id) (.inr id)
  have hw := hn.watched hm
  unfold Line.Watched at hw ⊢
  show match (s.line n).conn with | none => _ | some c => _
  cases hc : (s.line n).conn with
  | none =>
    simp only [hc] at hw ⊢
    exact (by simp only [Line.tick, hw]; rfl)
  | some c =>
    simp only [hc] at hw ⊢
    refine ⟨hw.1, ?_⟩
    by_cases hb : (s.line n).state = .bridged
    · rw [if_pos hb] at hw
      rw [if_pos (by exact hb)]
      exact monitorOk_ticked hw.2
    · rw [if_neg hb] at hw
      rw [if_neg (by exact hb)]
      exact (by simp only [Line.tick, hw.2]; rfl)

/-- A change of the Memory Port (R148, R153). -/
theorem State.Sound.modPort {d : Debts} (h : s.Sound d) {f : MemoryPort → MemoryPort} (hp : (s.modPort f).PortLaw)
    (hl : (f s.port).state = .loading → ∀ n, (s.line n).state = .closed) : (s.modPort f).Sound d where
  lines n := { h.lines n with loading := fun e => hl e n }
  standing := h.standing
  records := h.records
  quiet := h.quiet
  port := hp

theorem State.Sound.tickAll (h : s.Sound .none) (levels : Byte) : (tickAll levels s).Sound .none := by
  have hlines : (forLines (fun n u => u.modLine n fun l => l.tick.sampleReady s.firstTick (levels.getLsbD n.val)) s).Sound .none :=
    List.foldlRecOn (motive := fun t : State => t.Sound .none) allLines _ h fun _ ht n _ => ht.ticked n s.firstTick (levels.getLsbD n.val)
  exact (hlines.of_lines (t := { forLines (fun n u => u.modLine n fun l => l.tick.sampleReady s.firstTick (levels.getLsbD n.val)) s with
    firstTick := false }) rfl rfl rfl).modPort
    (f := fun p => { p with pollTimer := tickTimer p.pollTimer }) hlines.port fun hl n => (hlines.lines n).loading hl

/-- What the Connection Table makes of a changed ready level leaves the level acted on (R82, R87, R101). -/
theorem State.Sound.readyChanged (h : s.Sound ⟨[], [], record, [], [n]⟩) (first : Bool) :
    (s.readyChanged n first (s.line n).ready).Sound ⟨[], [], record, [], []⟩ := by
  have hstays : (s.line n).ReadyOk → s.Sound ⟨[], [], record, [], []⟩ := h.pay_ready
  unfold State.readyChanged
  cases hs : (s.line n).state <;> cases hr : (s.line n).ready
  case host.false | host.true =>
    have hn := hstays (by rw [Line.ReadyOk, hs]; exact ⟨nofun, nofun, nofun⟩)
    dsimp only
    split
    · exact hn
    · exact hn.post _ _ _ _
  case calling.false =>
    obtain ⟨y, c, d, hc⟩ := h.calling hs
    dsimp only
    rw [State.endCall_caller hc.connX hc.roleX, hc.peerX]
    exact h.failCall hc List.not_mem_nil List.not_mem_nil _
  case offered.true =>
    obtain ⟨x, c, d, hc⟩ := h.offered hs
    dsimp only
    rw [hc.connY]
    dsimp only
    rw [hc.peerY]
    exact h.answer hc List.not_mem_nil List.not_mem_nil hr
  case bridged.false => exact (h.owe_monitor n).releaseLine hs _
  all_goals exact hstays (by rw [Line.ReadyOk, hs, hr]; exact ⟨by decide, by decide, by decide⟩)

theorem State.Sound.recognise (h : s.Sound .none) : (recognise n s).Sound .none := by
  unfold Machine.recognise
  split
  · exact h
  · dsimp only
    have hn := h.lines n
    have hset : ∀ {record}, n ∈ record ∨ (s.line n).rdySample = false →
        (s.modLine n fun l => { l with ready := (s.line n).rdySample, graceCount := 0, readyDue := .none }).Sound
          ⟨[], [], record, [], [n]⟩ := fun {record} hr =>
      h.modLine_keeps n rfl rfl rfl rfl { hn.line with } hn.served hn.undrained hn.watched (fun hm => absurd (List.mem_cons_self ..) hm)
        (fun _ _ => ⟨nofun, nofun, nofun, nofun⟩) nofun (hr.imp_right fun hf ht => by rw [hf] at ht; cases ht)
    have hchanged : ∀ {record}, n ∈ record ∨ (s.line n).rdySample = false →
        ((s.modLine n fun l => { l with ready := (s.line n).rdySample, graceCount := 0, readyDue := .none }).readyChanged n
          ((s.line n).readyDue == .first) (s.line n).rdySample).Sound ⟨[], [], record, [], []⟩ := fun {record} hr => by
      have := (hset hr).readyChanged ((s.line n).readyDue == .first)
      rwa [State.line_modLine_same] at this
    split
    · exact (hchanged (.inl (List.mem_singleton_self n))).evaluateLine
    · next hl => exact hchanged (.inr (by simpa using hl))

/-! ### Expiries -/

theorem State.Sound.answerExpiry (h : s.Sound .none) : (answerExpiry n s).Sound .none := by
  unfold Machine.answerExpiry
  split
  · next hn => exact h.endCall (.inl hn.1) rfl _
  · exact h

theorem timerDue_isSome {t : Timer} (h : timerDue t = true) : t.isSome = true := by rw [(timerDue_iff t).mp h]; rfl

theorem State.Sound.idleExpiry (h : s.Sound .none) : (idleExpiry n s).Sound .none := by
  unfold Machine.idleExpiry
  split
  · next ht => exact ((h.owe_monitor n).owe_ready n).releaseLine ((h.lines n).line.idling (timerDue_isSome ht)).1 _
  · exact h

theorem State.Sound.drainExpiry (h : s.Sound .none) : (drainExpiry n s).Sound .none := by
  unfold Machine.drainExpiry
  split
  · next hn => exact h.cutDrain List.not_mem_nil hn.1
  · exact h

/-- A line whose monitor runs is BRIDGED (R126, R133). -/
theorem State.Sound.watching (h : s.Sound .none) (hm : (s.line n).monitor.silence.isSome = true) :
    ∃ c, s.Bridged n c.peer c := by
  have hw := (h.lines n).watched List.not_mem_nil
  unfold Line.Watched at hw
  cases hc : (s.line n).conn with
  | none =>
    simp only [hc] at hw
    rw [hw] at hm
    cases hm
  | some c =>
    simp only [hc] at hw
    by_cases hb : (s.line n).state = .bridged
    · exact ⟨c, h.bridged hb hc⟩
    · rw [if_neg hb] at hw
      rw [hw.2] at hm
      cases hm

theorem State.Sound.silenceExpiry (h : s.Sound .none) : (silenceExpiry n s).Sound .none := by
  unfold Machine.silenceExpiry
  split
  · next ht =>
    obtain ⟨c, hb⟩ := h.watching (timerDue_isSome ht)
    obtain ⟨hprofile, hon, hlength, hlist, hstate⟩ := h.monitorOk List.not_mem_nil hb
    split
    · next hm =>
      simp only [hm] at hon hstate
      exact h.setMonitor hb (g := fun m => { m with state := .ready, silence := none })
        ⟨hprofile, ⟨fun _ => hon.mp (by decide), fun _ => nofun⟩, hlength, hlist, hstate.1, rfl⟩
    · next hm hc =>
      obtain rfl : c = _ := Option.some.inj (hb.2.2.2.1.symm.trans hc)
      simp only [hm] at hon
      exact h.failMatch hb (g := fun m => { m with state := .ready, silence := none })
        ⟨hprofile, ⟨fun _ => hon.mp (by decide), fun _ => nofun⟩, rfl, nofun, rfl, rfl⟩
    · exact h.detectEscape hb.2.1 fun m => { m with holding := [], count := 0 }
    · exact h
  · exact h

/-! ### Accesses of the host -/

theorem State.Sound.readRxChar (h : s.Sound .none) : (readRxChar s).Sound .none := by
  unfold Machine.readRxChar
  split
  · exact h.modHost _
  · next e t ht =>
    set n := s.host.lineSelect with hn
    cases he : (s.queue (.rq n)).entries with
    | nil =>
      rw [State.selectedRq, State.removeOldest_of_nil he] at ht
      cases ht
    | cons e' rest =>
      rw [State.selectedRq, State.removeOldest_eq he] at ht
      cases ht
      have hopen : (s.line n).state ≠ .closed := fun hs => by
        have := ((h.lines n).line.closed hs).1
        rw [State.queue, this] at he
        cases he
      have heq : ∀ f, ((s.withFree (s.freeList ++ (s.queue (.rq n)).returned)).setQueue (.rq n) (s.queue (.rq n)).withoutOldest).modHost f =
          ((s.modHost f).withFree (s.freeList ++ (s.queue (.rq n)).returned)).modLine n fun l =>
            { l with rq := (s.queue (.rq n)).withoutOldest, overrun := (s.line n).overrun } := fun f => by
        rw [State.setQueue_rq]
        exact congrArg (State.modHost · f) (State.modLine_congr rfl)
      rw [heq]
      exact (h.modHost _).rqChanged hopen _ _ _

theorem State.Sound.writeTxChar (h : s.Sound .none) (v : Byte) : (writeTxChar v s).Sound .none := by
  unfold Machine.writeTxChar
  split
  · exact h.modHost _
  · split
    · exact h.modHost _
    · next hs =>
      split
      · exact h.modHost _
      · next t ht => exact h.appendTold List.not_mem_nil (by rw [not_not.mp hs]; decide) ht
end

end Sys2Proof.Machine

/-! PROOF. The Memory Port and the resets keep the invariant behind O6, the invariant is what the laws say, and O6. -/

namespace Sys2Proof.Machine

set_option Elab.async false

section
variable {s t : State}

/-! ### Saves and the beginning of a load (R149, R158 to R161) -/

theorem State.Sound.save (h : s.Sound .none) : (cmdSave s).Sound .none :=
  cmdSave_rule (P := (State.Sound · .none)) h.leave fun _ => (h.modPort
    (f := fun p => { p with state := .saving, bus := .writing, snapshot := saveImage s, writesMade := 0, pollTimer := none })
    ⟨Nat.zero_le _, fun _ => (by decide : 0 < Config.saveWrites), fun _ => saveImage_length s, fun hne => absurd rfl hne⟩ nofun).leave _

theorem State.Sound.reload (h : s.Sound .none) : (cmdReload s).Sound .none :=
  cmdReload_rule (P := (State.Sound · .none)) h.leave fun hp hc => by
    obtain ⟨hsnapshot, hwrites⟩ := h.port.2.2.2 (by rw [hp]; decide)
    exact (h.modPort (f := MemoryPort.beginLoad) ⟨h.port.1, nofun, nofun, fun _ => ⟨hsnapshot, hwrites⟩⟩ fun _ => hc).leave _

theorem State.Sound.endSave (h : s.Sound .none) (o : SaveOutcome) : (s.endSave o).Sound .none :=
  (h.modPort (f := fun p => { p with state := .idle, bus := .quiet, snapshot := [], writesMade := 0, pollTimer := none })
    ⟨Nat.zero_le _, nofun, nofun, fun _ => ⟨rfl, rfl⟩⟩ nofun).post _ _ _ _

theorem State.Sound.writeComplete (h : s.Sound .none) : (writeComplete s).Sound .none := by
  unfold Machine.writeComplete
  split
  · next hs =>
    obtain ⟨hstate, hbus⟩ := hs
    obtain ⟨-, hwrites, hlength, -⟩ := h.port
    exact (h.of_lines (t := { s with memory := memoryWriteAll s.memory (saveWrite s.port.snapshot (s.port.writesMade + 1)).1
                                       (saveWrite s.port.snapshot (s.port.writesMade + 1)).2 }) rfl rfl rfl).modPort
      (f := fun p => { p with writesMade := p.writesMade + 1, bus := .polling, pollTimer := startTimer Config.writePollTicks })
      ⟨hwrites hbus, nofun, fun _ => hlength hstate, fun hne => absurd hstate hne⟩ fun hl => absurd (hstate.symm.trans hl) (by decide)
  · exact h

theorem State.Sound.pollAcknowledge (h : s.Sound .none) : (pollAcknowledge s).Sound .none := by
  unfold Machine.pollAcknowledge
  split
  · next hs =>
    obtain ⟨hstate, -⟩ := hs
    obtain ⟨hmade, -, hlength, -⟩ := h.port
    split
    · exact h.endSave _
    · next hless =>
      exact h.modPort (f := fun p => { p with bus := .writing, pollTimer := none })
        ⟨hmade, fun _ => Nat.lt_of_not_le hless, fun _ => hlength hstate, fun hne => absurd hstate hne⟩
        fun hl => absurd (hstate.symm.trans hl) (by decide)
  · exact h

/-! ### The end of a load (R154 to R156) -/

/-- Lines that are all CLOSED owe nothing, and no record has its conditions. -/
theorem State.sound_of_closed (hc : ∀ n, (s.line n).state = .closed) (hline : ∀ n, (s.line n).Sound) (hconn : ∀ n, (s.line n).conn = none)
    (hmonitor : ∀ n, (s.line n).monitor = .offValue) (hrecords : ∀ i, RecordOk (s.record i)) (hactive : ∀ i c, s.record i ≠ .active c)
    (hdisjoint : ∀ i j n, reserves (s.record i) n = true → reserves (s.record j) n = true → i = j) (hport : s.PortLaw) : s.Sound .none where
  lines n := by
    obtain ⟨hrq, htq, hheld, hannounced, -⟩ := (hline n).closed (hc n)
    refine ⟨⟨hline n, State.peerOk_none (hconn n) (.inl (hc n)), ?_, fun _ => hc n⟩, fun _ _ => ⟨?_, .inr htq⟩,
      fun _ => Line.undrained_of_state (by rw [hc n]; decide), fun _ => ?_, fun _ => ?_⟩
    · rw [State.destination_of_ne (by rw [hc n]; decide), State.queue, Queue.occupancy, hrq, hheld]
      exact Line.heldAt_zero (hline n).settings
    · simp [Line.codePending, hheld, hannounced, announcedHeld]
    · unfold Line.Watched
      rw [hconn n]
      exact hmonitor n
    · rw [Line.ReadyOk, hc n]; exact ⟨nofun, nofun, nofun⟩
  standing := by
    refine ⟨fun i => ?_, hdisjoint, fun n i hi => by rw [hconn n] at hi; cases hi⟩
    have hi := hrecords i
    cases hr : s.record i with
    | empty => trivial
    | idle c => rw [hr] at hi; exact hi.1
    | armed c => rw [hr] at hi; exact hi.1
    | active c => exact absurd hr (hactive i c)
  records := hrecords
  quiet i c _ _ _ hcond := by
    have := (hcond _ (.inl rfl)).1
    rw [hc] at this
    cases this
  port := hport

/-- Settings and records installed on lines that are all CLOSED (R155, R156). -/
theorem State.Sound.installed (h : s.Sound .none) (hc : ∀ n, (s.line n).state = .closed) {g : LineNo → LineImage} (hg : ∀ n, (g n).Ok)
    (hline : ∀ n, t.line n = installLine (g n) (s.line n)) (hrecords : ∀ i, RecordOk (t.record i)) (hactive : ∀ i c, t.record i ≠ .active c)
    (hdisjoint : ∀ i j n, reserves (t.record i) n = true → reserves (t.record j) n = true → i = j) (hport : t.PortLaw) : t.Sound .none := by
  have hconn : ∀ n, (s.line n).conn = none := fun n => h.conn_none (.inl (hc n))
  refine State.sound_of_closed (fun n => by rw [hline]; exact hc n) (fun n => ?_) (fun n => by rw [hline]; exact hconn n)
    (fun n => by rw [hline]; exact h.monitor_off List.not_mem_nil (hconn n)) hrecords hactive hdisjoint hport
  rw [hline]
  exact { (h.lines n).line with
    closed := fun hs => by
      obtain ⟨hr, hq, hi, ha, -, ho⟩ := (h.lines n).line.closed hs
      exact ⟨hr, hq, hi, ha, rfl, ho⟩
    settings := installLine_settingsOk (hg n) _ }

theorem State.PortLaw.rest (h : s.PortLaw) (hp : s.port.state = .loading) (p : MemoryPort → MemoryPort)
    (hr : ∀ q : MemoryPort, (p q).state = .idle ∧ (p q).bus = .quiet ∧ (p q).snapshot = q.snapshot ∧ (p q).writesMade = q.writesMade) :
    (s.modPort p).PortLaw := by
  obtain ⟨hmade, -, -, hnone⟩ := h
  obtain ⟨hstate, hbus, hsnapshot, hwrites⟩ := hr s.port
  refine ⟨hwrites.symm ▸ hmade, fun hb => ?_, fun hs => ?_, fun _ => ?_⟩
  · cases hbus.symm.trans hb
  · cases hstate.symm.trans hs
  · rw [State.modPort, hsnapshot, hwrites]
    exact hnone (by rw [hp]; decide)

theorem State.Sound.loadFailed (h : s.Sound .none) (hp : s.port.state = .loading) (o : LoadOutcome) (k : Byte) :
    (s.loadFailed o k).Sound .none := by
  have hempty : ∀ i, (Vector.replicate 4 StandingRecord.empty).get i = .empty := by decide
  rw [State.loadFailed_eq]
  refine h.installed (fun n => (h.lines n).loading hp) (g := fun _ => factoryLineImage) (fun _ => factoryLineImage_ok)
    (fun n => by simp [State.line, Vector.get_eq_getElem]) (fun i => ?_) (fun i c hi => ?_) (fun i j n hi => ?_)
    (h.port.rest hp (fun p => { p with state := .idle, bus := .quiet }) fun _ => ⟨rfl, rfl, rfl, rfl⟩)
  · show RecordOk ((Vector.replicate 4 StandingRecord.empty).get i)
    rw [hempty]
    trivial
  · exact StandingRecord.noConfusion ((hempty i).symm.trans hi)
  · have hi : reserves ((Vector.replicate 4 StandingRecord.empty).get i) n = true := hi
    rw [hempty] at hi
    cases hi

theorem State.Sound.openAtStart (h : s.Sound .none) (hp : s.port.state ≠ .loading) (n : LineNo) :
    (s.openAtStart n).Sound .none ∧ (s.openAtStart n).port.state ≠ .loading := by
  unfold State.openAtStart
  split
  · next hn =>
    obtain ⟨-, hport, -⟩ := s.sameFrame_openLine n
    exact ⟨h.openLine List.not_mem_nil hn.2 hp, by rw [hport]; exact hp⟩
  · exact ⟨h, hp⟩

theorem State.Sound.install (h : s.Sound .none) (hp : s.port.state = .loading) {g : GoodImage} (hg : g.Ok) : (s.install g).Sound .none := by
  have hc : ∀ n, (s.line n).state = .closed := fun n => (h.lines n).loading hp
  unfold State.install
  set u := ((s.installSettings g).modPort MemoryPort.rest).post .loadDone noLine noLine (loadInfo .ok) with hu
  have hrecord : ∀ i, u.record i = g.record i := fun i => by
    rw [hu, State.installSettings_eq g hc]
    simp [State.record, State.post, State.modHost, State.modPort, Vector.get_eq_getElem]
  have hlines : ∀ n, u.line n = installLine (g.line n) (s.line n) := fun n => by
    rw [hu, State.installSettings_eq g hc]
    simp [State.line, State.post, State.modHost, State.modPort, Vector.get_eq_getElem]
  have hport : u.port = MemoryPort.rest s.port := by rw [hu, State.installSettings_eq g hc]; rfl
  have hsound : u.Sound .none := h.installed hc hg.lines hlines (fun i => by rw [hrecord]; exact (hg.records i).1)
    (fun i c => by rw [hrecord]; exact (hg.records i).2 c) (fun i j n => by rw [hrecord, hrecord]; exact hg.disjoint i j n)
    (State.PortLaw.congr (s := s.modPort MemoryPort.rest) hport (h.port.rest hp _ fun _ => ⟨rfl, rfl, rfl, rfl⟩))
  exact (List.foldlRecOn (motive := fun t : State => t.Sound .none ∧ t.port.state ≠ .loading) allLines _
    ⟨hsound, by rw [hport]; nofun⟩ fun _ ht n _ => ht.1.openAtStart ht.2 n).1

theorem State.Sound.imageReadEnd (h : s.Sound .none) (how : ReadEnd) : (imageReadEnd how s).Sound .none := by
  unfold Machine.imageReadEnd
  split
  · next hl =>
    have hp : s.port.state = .loading := by simpa [State.isLoading] using hl
    have hread : ∀ img, (s.modPort fun p => { p with loadBuffer := img }).Sound .none := fun img =>
      h.modPort (f := fun p => { p with loadBuffer := img }) h.port fun _ n => (h.lines n).loading hp
    cases how with
    | notAcknowledged k => exact h.loadFailed hp _ _
    | finished before =>
      dsimp only
      split
      · exact (hread (readImage s.memory before)).loadFailed hp _ _
      · next g hg => exact (hread (readImage s.memory before)).install hp (judgeImage_ok hg)
  · exact h

/-! ### The laws and the invariant -/

/-- What the laws say of lines, connections and records is the invariant, with what RESET# puts off while it is low. -/
theorem State.Lawful.sound (h : s.Lawful) {d : Debts} (htx : s.resetLow = false ∨ ∀ n, n ∈ d.tx) (hdrain : s.resetLow = false ∨ ∀ n, n ∈ d.drain)
    (hrecord : s.resetLow = false ∨ ∀ n, n ∈ d.record) : s.Sound d where
  lines n := by
    obtain ⟨hclosed, hrx⟩ := h.closed n
    obtain ⟨hanswer, hdrainTimer, hidle, hbreak, htally⟩ := h.timer n
    refine ⟨⟨⟨hclosed, hrx, hanswer, hdrainTimer, hidle, hbreak, htally, h.settings.1 n⟩, h.peer n, h.held n, fun hl => h.loading hl n⟩,
      fun hn ht => ?_, fun hn hs => ?_, fun _ => h.holding n, fun _ => h.ready n⟩
    · exact h.transmit (htx.resolve_right fun hall => hn (hall n)) n ht
    · exact (h.prompt (hdrain.resolve_right fun hall => hn (hall n))).1 n hs
  standing := h.standing
  records := h.settings.2.2
  quiet i c hi ha _ hcond := by
    have hi' : s.establishable c = false := by
      have := (h.prompt (hrecord.resolve_right fun hall => ha (hall _))).2 i
      rwa [hi] at this
    exact Bool.eq_false_iff.mp hi' ((s.establishable_iff c).mpr hcond)
  port := h.port

theorem State.Lawful.sound_none (h : s.Lawful) (hr : s.resetLow = false) : s.Sound .none := h.sound (.inl hr) (.inl hr) (.inl hr)

/-- The invariant and the laws of store, events and settings are all laws. -/
theorem State.Sound.lawful {d : Debts} (h : t.Sound d) (hmonitor : d.monitor = []) (hready : d.ready = []) (hnone : t.resetLow = false → d = .none)
    (hs : s.Lawful) (hk : s.Keeps t) : t.Lawful where
  pool := hk.pool hs.pool
  queue := hk.queue hs.queue
  quota := hk.quota hs.pool hs.queue hs.closed hs.loading hs.quota
  peer n := (h.lines n).peer
  closed n := ⟨(h.lines n).line.closed, (h.lines n).line.receiver⟩
  loading hl n := (h.lines n).loading hl
  standing := h.standing
  timer n := ⟨(h.lines n).line.answering, (h.lines n).line.draining, (h.lines n).line.idling, (h.lines n).line.spacing, (h.lines n).line.tally⟩
  ready n := (h.lines n).ready (by rw [hready]; exact List.not_mem_nil)
  holding n := (h.lines n).watched (by rw [hmonitor]; exact List.not_mem_nil)
  held n := (h.lines n).held
  transmit hr n := (h.lines n).served (by rw [hnone hr]; exact List.not_mem_nil)
  prompt hr := by
    refine ⟨fun n => (h.lines n).undrained (by rw [hnone hr]; exact List.not_mem_nil), fun i => ?_⟩
    cases hi : t.record i with
    | armed c =>
      have hq := h.quiet i c hi (by rw [hnone hr]; exact List.not_mem_nil) (by rw [hnone hr]; exact List.not_mem_nil)
      exact Bool.eq_false_iff.mpr (mt (t.establishable_iff c).mp hq)
    | empty => trivial
    | idle c => trivial
    | active c => trivial
  event := hk.event hs.event
  seq := hk.seq hs.seq
  settings := hk.settings hs.settings
  port := h.port
  memory := hk.memory hs.memory
  enable := hk.enable hs.enable

/-! ### RESET# low (R18, R165) -/

/-- What is put off while RESET# is low: every transmitter, every drain and every record. -/
def Debts.putOff : Debts := ⟨allLines, allLines, allLines, [], []⟩

theorem State.Sound.assertReset (h : s.Sound .putOff) : s.assertReset.Sound .putOff := by
  have hlines : (forLines (fun n t => t.modLine n fun l => { l with tx := .idle, breakTimer := none }) s).Sound .putOff :=
    List.foldlRecOn (motive := fun t : State => t.Sound .putOff) allLines _ h fun u hu n _ =>
      have hn := hu.lines n
      hu.modLine_keeps n rfl rfl rfl rfl { hn.line with spacing := rfl } (fun hm => absurd (mem_allLines n) hm)
        (fun hm => absurd (mem_allLines n) hm) hn.watched hn.ready (fun m _ => .refl _ m) (fun _ => id) (.inr id)
  obtain ⟨hmade, -, hsaving, hrest⟩ := hlines.port
  exact ((hlines.of_lines (t := { forLines (fun n t => t.modLine n fun l => { l with tx := .idle, breakTimer := none }) s with
    resetLow := true }) rfl rfl rfl).modPort (f := fun p => { p with bus := .quiet }) ⟨hmade, nofun, hsaving, hrest⟩
      fun hl n => (hlines.lines n).loading hl).modHost _

theorem State.Sound.hldi_low (h : s.Sound .putOff) (n : LineNo) (level : Bool) : (s.modLine n fun l => { l with hldi := level }).Sound .putOff :=
  have hn := h.lines n
  h.modLine_keeps n rfl rfl rfl rfl { hn.line with } (fun hm => absurd (mem_allLines n) hm) hn.undrained hn.watched hn.ready
    (fun m _ => .refl _ m) (fun _ => id) (.inr id)

/-! ### Every command and event -/

theorem State.Sound.runCommand_all (h : s.Sound .none) (hm : memoryWf s.memory = true) (k : HostCommand) :
    (Machine.runCommand k s).Sound .none :=
  h.runCommand k ((s.resetAll_lawful .done hm).sound_none rfl) h.save h.reload

/-- What every command and event but a RESET# that goes low keeps while RESET# is high. -/
theorem State.Sound.effect (h : s.Sound .none) (hm : memoryWf s.memory = true) (c : Instr) (hc : c ≠ .resetPinAsserted) :
    (effect c s).Sound .none := by
  have hcommand := h.runCommand_all hm
  cases c
  case resetPinAsserted => exact absurd rfl hc
  case resetPin => exact (s.resetAll_lawful .none hm).sound_none rfl
  case unknownCommand code =>
    dsimp only [Machine.effect, writeCommand]
    split
    · exact hcommand _
    · exact h.leave _
  case rxChar => exact h.readRxChar
  case txChar v => exact h.writeTxChar v
  case partStatus =>
    dsimp only [Machine.effect, readPartStatus]
    exact h.modHost _
  case evtPop =>
    dsimp only [Machine.effect, popEvent]
    exact h.modHost _
  case registerWrite offset v =>
    exact writeRegister_rule (P := (State.Sound · .none)) offset v h (fun f _ _ _ => h.modHost f) hcommand (h.writeTxChar v) (h.modHost _)
  case frameComplete n data parity stop => exact h.frameCompleted data parity stop
  case markWaitDone n => exact h.markWaitEnded
  case breakEnd n => exact h.breakEnded
  case hldiChange n level => exact h.hldiChanged level
  case readyRecognition n => exact h.recognise
  case itemFinished n => exact h.itemDone
  case breakTimerExpiry n => exact h.breakExpiry
  case answerTimerExpiry n => exact h.answerExpiry
  case idleTimerExpiry n => exact h.idleExpiry
  case drainTimerExpiry n => exact h.drainExpiry
  case silenceTimerExpiry n => exact h.silenceExpiry
  case imageReadDone how => exact h.imageReadEnd how
  case pollAcknowledged => exact h.pollAcknowledge
  case saveByteNotAcknowledged byte =>
    dsimp only [Machine.effect, byteRefused]
    split
    · exact h.endSave _
    · exact h
  case writePollExpiry =>
    dsimp only [Machine.effect, pollExpiry]
    split
    · exact h.endSave _
    · exact h
  case readySample levels => exact h.tickAll levels
  case startBit n sample => exact h.startBitSampled sample
  case saveWriteComplete => exact h.writeComplete
  all_goals
    dsimp only [Machine.effect]
    exact hcommand _

theorem State.Lawful.assertReset (h : s.Lawful) : s.assertReset.Lawful :=
  (h.sound (d := .putOff) (.inr mem_allLines) (.inr mem_allLines) (.inr mem_allLines)).assertReset.lawful rfl rfl nofun h
    s.moved_assertReset.keeps

theorem State.Lawful.effect (h : s.Lawful) (hr : s.resetLow = false) (c : Instr) : (effect c s).Lawful := by
  by_cases hc : c = .resetPinAsserted
  · rw [hc]
    exact h.assertReset
  · exact ((h.sound_none hr).effect h.memory c hc).lawful rfl rfl (fun _ => rfl) h (effect_keeps c s)

theorem State.Lawful.effectLow (h : s.Lawful) (hr : s.resetLow = true) (c : Instr) : (effectLow c s).Lawful := by
  have hsound := h.sound (d := .putOff) (.inr mem_allLines) (.inr mem_allLines) (.inr mem_allLines)
  have hlow : ∀ {u : State}, u.resetLow = true → u.resetLow = false → Debts.putOff = .none := fun h1 h2 => by rw [h1] at h2; cases h2
  cases c
  case resetPin => exact s.resetAll_lawful .none h.memory
  case resetPinAsserted => exact h.assertReset
  case hldiChange n level => exact (hsound.hldi_low n level).lawful rfl rfl (hlow hr) h (effectLow_keeps (.hldiChange n level) s)
  case rxChar => exact (hsound.modHost fun h => { h with readData := none }).lawful rfl rfl (hlow hr) h (effectLow_keeps .rxChar s)
  case partStatus => exact (hsound.modHost fun h => { h with readData := none }).lawful rfl rfl (hlow hr) h (effectLow_keeps .partStatus s)
  all_goals exact h

/-- The queue of commands is no part of the laws. -/
theorem State.Lawful.of_pending (h : s.Lawful) (rest : List Instr) : State.Lawful { s with pending := rest } := { h with }
end

/-- Settles O6: every command and event keeps the invariant, which is what the laws say. -/
theorem stepKeepsEveryLaw : Obligations.step_keeps_every_law := fun _ _ h hstep =>
  step_rule (P := State.Lawful) hstep h (fun hr c rest => (h.of_pending rest).effect hr c) fun hr c rest => (h.of_pending rest).effectLow hr c

end Sys2Proof.Machine
